-- ==== Sys2Proof/Word.lean ====
section
/-! DEFINITION. The word types of the Dalja DW316: bytes on the trunk, 16-bit values, the 32-bit line clock,
the 24-bit line travel and the 12-bit rack tags (R1: numbers, wrapping, capacities). -/

namespace Sys2Proof

/-- One byte of a trunk frame (R163). -/
abbrev Byte := BitVec 8

/-- A 2-byte field: a reading, an order value, a notice subject (R163, R166). -/
abbrev Half := BitVec 16

/-- A line-clock value: a 32-bit count of 10 ms units that wraps (R173). -/
abbrev Clock := BitVec 32

/-- A count of conveyor steps modulo 2^24: line travel L and a rack's entry travel (R2, R3). -/
abbrev Travel := BitVec 24

/-- A rack tag, 0 to 4095, wrapping (R8). -/
abbrev Tag := BitVec 12

end Sys2Proof
end

