-- ==== Sys2Proof/Config.lean ====
section
/-! DEFINITION. What one DW316 fixes: the capacities and fixed periods of the manual (R1 and the rule named at each),
the fixed trunk addresses, and the free values, which the manual leaves open. -/

namespace Sys2Proof.Config

/-- Frame payload, at most 16 bytes (R110). -/
abbrev maxPayload : Nat := 16
/-- Route entries 0 to 63 (R117). -/
abbrev routes : Nat := 64
/-- Zones Z0 to Z7 (R30). -/
abbrev zones : Nat := 8
/-- Curves 0 to 7 (R32). -/
abbrev curves : Nat := 8
/-- Signatures 0 to 47 (R60). -/
abbrev signatures : Nat := 48
/-- Fault classes 0 to 11 (R69). -/
abbrev classes : Nat := 12
/-- Plans 0 to 23 (R84). -/
abbrev plans : Nat := 24
/-- Step slots of a plan, 0 to 11 (R84). -/
abbrev steps : Nat := 12
/-- At most three plan levels (R88). -/
abbrev maxLevels : Nat := 3
/-- At most 32 rack records (R6). -/
abbrev journalCapacity : Nat := 32
/-- At most 16 notices (R168). -/
abbrev noticeCapacity : Nat := 16
/-- At most 16 injected frames (R142). -/
abbrev queueCapacity : Nat := 16
/-- Keep-fresh and watch polls are enqueued while fewer than 8 frames wait (R53, R176). -/
abbrev pollLimit : Nat := 8
/-- The ceiling of a position, a credit, an age field (R5, R39, R58). -/
abbrev ceiling16 : Nat := 65535
/-- The ceiling of the occurrence and repeat counts (R74, R81). -/
abbrev ceiling8 : Nat := 255
/-- A finished rack's length is at least 40 steps (R12). -/
abbrev minRackLength : Nat := 40
/-- The greatest end of a zone span (R31). -/
abbrev machineLength : Nat := 1600
/-- At most 8 HEATER route entries (R119). -/
abbrev maxHeaters : Nat := 8
/-- Reply timeout until LINE is written, ms (R118). -/
abbrev unwrittenReplyTimeout : Nat := 20
/-- The sequence lock runs for 50 line-clock units, 500 ms (R145). -/
abbrev lockUnits : Clock := 50

/-- The cycle controller's trunk address (R1, Addresses and channels). -/
abbrev controllerAddress : Byte := 61
/-- The part's own trunk address. -/
abbrev partAddress : Byte := 62
/-- The broadcast address. -/
abbrev broadcastAddress : Byte := 63

/-- FREE VALUE (log entry 5). LEVEL_READ gives the time remaining to a deadline "in 100 ms units" (R108), and the clock
counts 10 ms units; the manual does not say how a remainder is rounded. Applied to the remaining 10 ms units: true when
this part rounds that remainder up. No body: nothing may rest on its value. -/
opaque remainderRoundsUp : Nat → Bool

/-- FREE VALUE (log entry 12). RACK_READ sends the centre as a signed 2-byte field (R164), and a centre can reach 65535
(R5, R13); the manual does not say what the field holds for a centre above 32767. Applied to that centre. No body:
nothing may rest on its value. -/
opaque centreField : Int → BitVec 16

end Sys2Proof.Config
end

