-- ==== Sys2Proof/Syntax.lean ====
section
/-! DEFINITION. The frames of the trunk (R110, R163) and the commands of the DW316: one constructor of `Instr` per row of
spec/opcode_table.json. A command is one indivisible step of the part: a frame received whole at a port, an event of the
part's own ports, or an event of its time base. -/

namespace Sys2Proof

/-- The four flags of byte 2 of a frame, bits 3 to 0 (R163). -/
structure FrameFlags where
  attn      : Bool := false
  rewritten : Bool := false
  image     : Bool := false
  engine    : Bool := false
  deriving DecidableEq, Repr

/-- A trunk frame without its LEN byte and CRC, which follow from the rest (R110, R163). `dst` keeps the whole byte 0,
whose two top bits must be clear in a well-formed frame. -/
structure Frame where
  dst     : Byte
  src     : Byte
  kind    : BitVec 4
  flags   : FrameFlags := {}
  seq     : Byte
  payload : List Byte
  deriving DecidableEq, Repr

/-- The part's two trunk segments. -/
inductive Port where
  | cPort
  | nPort
  deriving DecidableEq, Repr

/-- The frame kinds' codes (R163). A code outside 1 to 8 is well-formed too (R110), so a frame carries the 4-bit code. -/
abbrev Kind.order : BitVec 4 := 1
abbrev Kind.poll : BitVec 4 := 2
abbrev Kind.ack : BitVec 4 := 3
abbrev Kind.reading : BitVec 4 := 4
abbrev Kind.phase : BitVec 4 := 5
abbrev Kind.prefixKind : BitVec 4 := 6
abbrev Kind.mgmtReq : BitVec 4 := 7
abbrev Kind.mgmtReply : BitVec 4 := 8

/-- The commands. Where a command is a controller frame, its operands are the fields of that frame that the row leaves
open: `seq` is the frame's SEQ and, for a management request, `args` the payload bytes after the request code. What
becomes of the frame (accepted, discarded, classified) is decided by the rules, from the state. -/
inductive Instr where
  /-- RESET_N: a low pulse on RESET_N, or power-on (R149). -/
  | resetN
  /-- MALFORMED_FRAME: the characters of one frame received on a port, up to the idle gap (R110). -/
  | malformedFrame (port : Port) (bytes : List Byte)
  /-- C_FRAME_DISCARD: a frame received on the C-port (R112). -/
  | cFrameDiscard (f : Frame)
  /-- CONTROLLER_ORDER: an ORDER of LEN 3 from the cycle controller to a node's channel (R130). -/
  | controllerOrder (node chan : Byte) (value : Half) (seq : Byte)
  /-- CONTROLLER_POLL: a POLL of LEN 1 from the cycle controller to a node's channel (R135). -/
  | controllerPoll (node chan seq : Byte)
  /-- TRANSPARENT_FRAME: a controller frame to a node (R116). -/
  | transparentFrame (f : Frame)
  /-- PHASE: a PHASE broadcast of the cycle controller with its payload (R125). -/
  | phase (seq : Byte) (payload : List Byte)
  /-- PREFIX: a PREFIX frame to address 62; its payload is ignored (R151). -/
  | prefixFrame (seq : Byte) (payload : List Byte)
  /-- MGMT_UNKNOWN: a frame of the given kind and payload to address 62 (R113, R152). -/
  | mgmtUnknown (kind : BitVec 4) (seq : Byte) (payload : List Byte)
  /-- STATUS (R170). -/
  | status (seq : Byte) (args : List Byte)
  /-- NOTICE_FETCH (R169). -/
  | noticeFetch (seq : Byte) (args : List Byte)
  /-- RACK_READ (R25). -/
  | rackRead (seq : Byte) (args : List Byte)
  /-- LATCH_READ (R78). -/
  | latchRead (seq : Byte) (args : List Byte)
  /-- CHANNEL_READ (R58). -/
  | channelRead (seq : Byte) (args : List Byte)
  /-- TABLE_READ in the entry view (R161). -/
  | tableRead (seq : Byte) (args : List Byte)
  /-- TABLE_READ in the RUN view (R161). -/
  | tableReadRun (seq : Byte) (args : List Byte)
  /-- LEVEL_READ (R108). -/
  | levelRead (seq : Byte) (args : List Byte)
  /-- SEQ_LOCK (R145). -/
  | seqLock (seq : Byte) (args : List Byte)
  /-- SEQ_UNLOCK (R145). -/
  | seqUnlock (seq : Byte) (args : List Byte)
  /-- TABLE_WRITE of a SINGLE part (R159). -/
  | tableWrite (seq : Byte) (args : List Byte)
  /-- TABLE_WRITE of a FIRST part (R160). -/
  | tableWriteFirst (seq : Byte) (args : List Byte)
  /-- TABLE_WRITE of a LAST part (R160). -/
  | tableWriteLast (seq : Byte) (args : List Byte)
  /-- ARM (R154). -/
  | arm (seq : Byte) (args : List Byte)
  /-- DISARM (R157). -/
  | disarm (seq : Byte) (args : List Byte)
  /-- PARK (R174). -/
  | park (seq : Byte) (args : List Byte)
  /-- WAKE (R177). -/
  | wake (seq : Byte) (args : List Byte)
  /-- FAULT_CLEAR (R76). -/
  | faultClear (seq : Byte) (args : List Byte)
  /-- CONTAIN_CLEAR (R82). -/
  | containClear (seq : Byte) (args : List Byte)
  /-- RETAIN_RELEASE (R106). -/
  | retainRelease (seq : Byte) (args : List Byte)
  /-- MASK_SET (R129). -/
  | maskSet (seq : Byte) (args : List Byte)
  /-- SOFT_RESET (R158). -/
  | softReset (seq : Byte) (args : List Byte)
  /-- REPLY_SENT: the last character of the upstream reply has gone (R114). -/
  | replySent
  /-- N_SEND_END: the last character of a frame sent on the N-port has gone (R120). -/
  | nSendEnd
  /-- NODE_REPLY: a well-formed frame received whole on the N-port (R123). -/
  | nodeReply (f : Frame)
  /-- MISS: the reply timeout expires (`none`), or, after it, a frame whose reception had begun before the expiry ends
  (`some f`) (R120, R124). -/
  | miss (late : Option Frame)
  /-- STRAY: a well-formed frame received whole on the N-port (R121). -/
  | stray (f : Frame)
  /-- ARBITER_CHOICE (R146). -/
  | arbiterChoice
  /-- ROOM_LIST_APPEND (R143). -/
  | roomListAppend
  /-- AGE_CHECK (R50). -/
  | ageCheck
  /-- CREDIT_TICK (R27). -/
  | creditTick
  /-- WATCH_INTERVAL (R176). -/
  | watchInterval
  /-- SILENCE_EXPIRY (R72). -/
  | silenceExpiry
  /-- STEP_DEADLINE (R101). -/
  | stepDeadline
  /-- SEQ_LOCK_EXPIRY (R145). -/
  | seqLockExpiry
  /-- CHECK_COMPLETION (R156). -/
  | checkCompletion
  /-- LINE_CLOCK_ADVANCE (R173). -/
  | lineClockAdvance
  /-- REPLY_BEGINS_TO_ARRIVE: the first character of a frame arrives on the N-port (R120). -/
  | replyBeginsToArrive
  deriving DecidableEq, Repr

end Sys2Proof
end

