-- ==== Sys2Proof/Decode.lean ====
section
/-! DEFINITION. The command that a word of spec/opcode_table.json spells. No row of that table gives bits: a command of
this block is a frame or an event, and frames are read by `Machine.parseFrame` (R110, R163). -/

namespace Sys2Proof

/-- No word spells a command, since no row of the table has bits. -/
def decodeTableWord (nbits w : Nat) : Option Instr :=
  match nbits, w with
  | _, _ => none

end Sys2Proof
end

