-- ==== Sys2Proof/Machine/State.lean ====
section
/-! DEFINITION. The state of the DW316, block by block (00_scope.md, Blocks), the reasons a step can stop, and the state
after RESET_N. Plain data: every register, table, record, queue, flag and deadline the manual gives the part, and the
model's own marks, each said to be so. -/

namespace Sys2Proof.Machine

/-! ### Enumerations -/

/-- The four engine states (R149). -/
inductive Engine where
  | config | checking | armed | watch
  deriving DecidableEq, Repr

/-- The six machine phases (R125). -/
inductive Phase where
  | standby | fill | heatUp | production | pause | empty
  deriving DecidableEq, Repr

/-- The fourteen route kinds (R117). -/
inductive RouteKind where
  | temp | level | pressure | current | leak | eyeEntry | eyeExit | advance
  | heater | pump | inlet | drain | conveyor | indicator
  deriving DecidableEq, Repr

/-- The zone kinds (R28). -/
inductive ZoneKind where
  | none | prewash | wash | rinse | finalRinse | dry
  deriving DecidableEq, Repr

/-- The signature tests (R60). -/
inductive SigTest where
  | above | below | equal | diffAbove | changeBelow | stale | bad
  deriving DecidableEq, Repr

/-- The sixteen plan step kinds (R84). -/
inductive StepKind where
  | holdLine | runLine | capLine | releaseLine | set | release | waitFor | waitTime
  | drain | refill | mark | lockout | notify | check | endOk | endFail
  deriving DecidableEq, Repr

/-- The test of a WAIT_FOR step (R84, R101). -/
inductive WaitTest where
  | above | below | equal
  deriving DecidableEq, Repr

/-- The eight tables (R164, the table byte). -/
inductive TableId where
  | line | route | zone | curve | signature | cls | select | plan
  deriving DecidableEq, Repr

/-- The reasons of the table check (R155, R164). -/
inductive CheckReason where
  | none | lineUnwritten | absentRef | wrongKind | missingRef | span | overlap | exitShort
  | heaterCount | classRange | failTarget | markOrder
  deriving DecidableEq, Repr

/-- The result codes of management replies (R164). -/
inductive Result where
  | ok | accepted | notPrefixed | wrongState | busy | badIndex | badValue | duplicate
  | stageMismatch | notLive | planActive | notIdle | stillMatching | notSettled | unknown | empty
  deriving DecidableEq, Repr

/-! ### Tables (R28 to R33, R60, R77, R84, R87, R117, R118) -/

/-- A ROUTE entry (R117). The fields that its kind does not use are kept as written. -/
structure RouteEntry where
  node      : Byte
  chan      : Byte
  kind      : RouteKind
  zone      : Option Nat
  group     : Nat
  keepFresh : Nat
  stale     : Nat
  clampMin  : Nat
  clampMax  : Nat
  deriving DecidableEq, Repr

/-- The LINE record once written (R118). -/
structure LineRecord where
  replyTimeout  : Nat
  silence       : Nat
  entryEye      : Nat
  exitEye       : Nat
  advance       : Nat
  conveyor      : Option Nat
  indicator     : Option Nat
  exitPos       : Nat
  exitTol       : Nat
  maxLength     : Nat
  watchInterval : Nat
  deriving DecidableEq, Repr

/-- A ZONE entry: span, kind and treatment fields (R28), tank and equipment fields (R29). -/
structure ZoneEntry where
  kind         : ZoneKind
  start        : Nat
  stop         : Nat
  temp         : Option Nat
  press        : Option Nat
  heatCurve    : Nat
  heatTarget   : Nat
  actCurve     : Nat
  actTarget    : Nat
  level        : Option Nat
  heater       : Option Nat
  pump         : Option Nat
  inlet        : Option Nat
  drain        : Option Nat
  volume       : Nat
  drainRate    : Nat
  drainOffset  : Nat
  refillRate   : Nat
  refillOffset : Nat
  emptyLevel   : Nat
  operLevel    : Nat
  deriving DecidableEq, Repr

/-- One breakpoint of a curve (R32). -/
structure Breakpoint where
  x : Nat
  w : Nat
  deriving DecidableEq, Repr

/-- A CURVE entry (R32): the count and the eight breakpoints as committed; those at or beyond the count are ignored. -/
structure CurveEntry where
  count  : Nat
  points : List Breakpoint
  deriving DecidableEq, Repr

/-- One gate condition of a signature: an actuator's route ref and ON or OFF (R60). -/
structure GateCond where
  ref : Nat
  on  : Bool
  deriving DecidableEq, Repr

/-- A SIGNATURE entry (R60). Gate slots beyond the gate count are kept as written. -/
structure SigEntry where
  test        : SigTest
  chA         : Nat
  chB         : Option Nat
  threshold   : Int
  window      : Nat
  gateCount   : Nat
  gate1       : GateCond
  gate2       : GateCond
  persistence : Nat
  cls         : Nat
  zone        : Option Nat
  deriving DecidableEq, Repr

/-- A CLASS entry (R77). `ignored` is bits 7 to 2 of the byte as last committed: without effect (R165), kept because
TABLE_READ gives the bytes "as they were last committed" (R161, log entry 6). -/
structure ClassEntry where
  enable  : Bool
  watch   : Bool
  ignored : BitVec 6
  deriving DecidableEq, Repr

/-- A SELECT row: one cell per phase, STANDBY to EMPTY, a plan or NONE (R87). -/
structure SelectRow where
  standby    : Option Nat
  fill       : Option Nat
  heatUp     : Option Nat
  production : Option Nat
  pause      : Option Nat
  empty      : Option Nat
  deriving DecidableEq, Repr

/-- A PLAN step slot (R84). `failTarget` is a step index 1 to 11, or `none` for FAIL. What subject, value and timeout
mean follows from the kind. -/
structure PlanSlot where
  kind       : StepKind
  subject    : Byte
  value      : Half
  timeout    : Half
  failTarget : Option Nat
  deriving DecidableEq, Repr

/-- The tables. An absent entry is `none`, distinct from an entry of zeros (R1). PLAN slot `step` of `plan` stands at
index 12 * plan + step. CLASS entries are never absent (R77, R161). -/
structure Tables where
  line      : Option LineRecord
  route     : Vector (Option RouteEntry) 64
  zone      : Vector (Option ZoneEntry) 8
  curve     : Vector (Option CurveEntry) 8
  signature : Vector (Option SigEntry) 48
  cls       : Vector ClassEntry 12
  select    : Vector (Option SelectRow) 12
  plan      : Vector (Option PlanSlot) 288
  deriving DecidableEq, Repr

/-! ### Channel image (R45) -/

/-- The status of a sensor image entry (R45). -/
inductive ImageStatus where
  | never | fresh | stale | bad
  deriving DecidableEq, Repr

/-- The image at one route index. The sensor fields count while the route entry is of a sensor kind, `applied` while it
is of an actuator kind; there is no image entry while the route entry is absent (R45). -/
structure ImageCell where
  value       : Half
  status      : ImageStatus
  lastReading : Option Clock
  pollRef     : Option Clock
  keepPending : Bool
  applied     : Half
  deriving DecidableEq, Repr

/-! ### Signature monitor, latches, containment (R63, R73, R79) -/

/-- The last outcome of a signature (R63). -/
inductive LastOutcome where
  | none | hit | no
  deriving DecidableEq, Repr

/-- A signature's run state (R63). -/
structure SigRun where
  count  : Nat
  last   : LastOutcome
  anchor : Option (Half × Clock)
  deriving DecidableEq, Repr

/-- The source of a raise (R68, R70). -/
inductive Source where
  | signature (index : Nat)
  | node
  | silence
  | track
  deriving DecidableEq, Repr

/-- The cause a raise carries (R68, R70). -/
structure Cause where
  source : Source
  zone   : Option Nat
  value  : Int
  time   : Clock
  deriving DecidableEq, Repr

/-- The states of a latch (R73). -/
inductive LatchState where
  | clear | pending | recovering | resolved | failed
  deriving DecidableEq, Repr

/-- How a latch last came to RESOLVED or FAILED (R73). -/
inductive Ending where
  | ok | fail | noPlan
  deriving DecidableEq, Repr

/-- One latch of the fault latch bank (R73). -/
structure Latch where
  state      : LatchState
  count      : Nat
  firstCause : Option Cause
  ending     : Option Ending
  deriving DecidableEq, Repr

/-- The containment unit's first cause (R79). -/
structure ContainCause where
  cls  : Nat
  zone : Option Nat
  deriving DecidableEq, Repr

/-- The containment unit (R79). -/
structure Containment where
  engaged    : Bool
  firstCause : Option ContainCause
  repeats    : Nat
  deriving DecidableEq, Repr

/-! ### Rack journal (R2 to R11) -/

/-- Where a rack is in its passage (R3). -/
inductive RackState where
  | entering | inLine | atExit
  deriving DecidableEq, Repr

/-- One entry of a rack's credit list (R4). -/
structure Credit where
  zone   : Nat
  heat   : Nat
  action : Nat
  gap    : Bool
  deriving DecidableEq, Repr

/-- A rack's fault overlap (R3). -/
structure FaultOverlap where
  cls  : Nat
  zone : Nat
  time : Clock
  deriving DecidableEq, Repr

/-- A rack record (R3). -/
structure Rack where
  tag         : Tag
  entryTravel : Travel
  length      : Option Nat
  state       : RackState
  merged      : Bool
  rerun       : Bool
  credits     : List Credit
  overlap     : Option FaultOverlap
  deriving DecidableEq, Repr

/-- The rack journal: line travel L, the records (oldest first), next tag, the overflow-in-progress flag and the eyes'
last values (R2, R6, R8, R9, R11). -/
structure Journal where
  travel    : Travel
  racks     : List Rack
  nextTag   : Tag
  overflow  : Bool
  entryLast : Bool
  exitLast  : Bool
  deriving DecidableEq, Repr

/-! ### Plan executor (R88) -/

/-- What a level's current step waits for (R88, R108). -/
inductive WaitKind where
  | none | ack | reading | time | queueRoom
  deriving DecidableEq, Repr

/-- A plan level (R88). Its depth is its place in `State.levels`, 0 at the bottom. `tankPhase` is the phase 1 to 5 of a
DRAIN or REFILL step, else 0. `touched` is kept in ascending route index, one entry a channel. `justBegun` is the MODEL's
own mark (log entry 7): the step's wait began while the reading now being taken was already being taken. -/
structure Level where
  cls       : Nat
  plan      : Nat
  step      : Nat
  wait      : WaitKind
  tankPhase : Nat
  deadline  : Option Clock
  touched   : List (Nat × Half)
  cap       : Option Nat
  lockout   : Bool
  justBegun : Bool
  deriving DecidableEq, Repr

/-! ### Order gate and line arbiter (R128, R129, R142, R143, R146) -/

/-- The owner of an actuator channel; a level is named by its depth (R128). -/
inductive Owner where
  | controller
  | level (depth : Nat)
  | retained
  deriving DecidableEq, Repr

/-- The held slot of an actuator channel (R128). -/
inductive HeldSlot where
  | empty
  | held (value : Half)
  | replayDue (value : Half)
  deriving DecidableEq, Repr

/-- The gate at one route index; it counts while the route entry is of an actuator kind (R128). -/
structure GateCell where
  owner       : Owner
  held        : HeldSlot
  handBack    : Option Half
  forceOffDue : Bool
  deferred    : Bool
  deriving DecidableEq, Repr

/-- The order gate: its entries, the two protection masks (bit n = group n) and the sequence lock, whose deadline is
present while it is on (R128, R129, R145). -/
structure OrderGate where
  cells   : Vector GateCell 64
  ctlMask : BitVec 8
  planMask : BitVec 8
  lock    : Option Clock
  deriving DecidableEq, Repr

/-- What the frame router and the gate made of an accepted frame to a node (R113, R130, R131). An `order` carries the
value that was let through; a `protectedPoll` the POLL that took the ORDER's place. -/
inductive CtlKind where
  | transparent
  | poll (index : Nat)
  | order (index : Nat) (value : Half)
  | protectedPoll (index : Nat) (poll : Frame)
  deriving DecidableEq, Repr

/-- The controller frame: the frame as the cycle controller sent it, and what is to be sent for it (R113). -/
structure CtlFrame where
  req  : Frame
  kind : CtlKind
  deriving DecidableEq, Repr

/-- Who a frame sent on the N-port belongs to (R111, R123, R142). `planOrphan` is a plan order whose level has since been
suspended or removed: the executor ignores its end (R92, R109, R123). -/
inductive Origin where
  | controller (c : CtlFrame)
  | keepFresh (index : Nat)
  | watch (index : Nat)
  | plan (depth : Nat) (step : Nat) (index : Nat)
  | planOrphan (index : Nat)
  | replay (index : Nat)
  | handBack (index : Nat)
  | indicator (index : Nat)
  | phase
  | forceOff (index : Nat)
  deriving DecidableEq, Repr

/-- A frame of the injected-frame queue (R142). -/
structure QFrame where
  frame  : Frame
  origin : Origin
  deriving DecidableEq, Repr

/-- An entry of the room list (R143): a plan order with its value, or a replay or hand-back, whose value stands in the
gate entry. -/
inductive RoomEntry where
  | plan (depth : Nat) (step : Nat) (index : Nat) (value : Half)
  | replay (index : Nat)
  | handBack (index : Nat)
  deriving DecidableEq, Repr

/-- Last served (R146). -/
inductive Served where
  | controller | injected
  deriving DecidableEq, Repr

/-- The line arbiter: the injected-frame queue (head first), the room list, the controller frame waiting for the N-side
and last served (R113, R142, R143, R146). -/
structure Arbiter where
  queue      : List QFrame
  room       : List RoomEntry
  waiting    : Option CtlFrame
  lastServed : Served
  deriving DecidableEq, Repr

/-! ### Ports (R110 to R112, R120, R122, R125, R127) -/

/-- The controller transaction: none, open and unanswered, or its reply being sent (R112, R114). -/
inductive CPort where
  | idle
  | waiting
  | replying (reply : Frame)
  deriving DecidableEq, Repr

/-- The open node transaction (R120): the request as sent, its origin, the reply timeout it began with in ms, whether the
timeout has started (the request's last character has gone), whether a frame has begun to arrive, and whether the timeout
expired while that frame was arriving. -/
structure NodeTrans where
  req       : Frame
  origin    : Origin
  timeoutMs : Nat
  timing    : Bool
  begun     : Bool
  expired   : Bool
  deriving DecidableEq, Repr

/-- The five sticky flags (R171). -/
structure Sticky where
  overrun  : Bool
  badC     : Bool
  badN     : Bool
  stray    : Bool
  badPhase : Bool
  deriving DecidableEq, Repr

/-- The ports and the frame router (R127). `sending` is the frame whose characters are going out on the N-port. `misses`
is indexed by node address; address 0 is never used. -/
structure Ports where
  cport     : CPort
  sending   : Option Frame
  trans     : Option NodeTrans
  misses    : Vector Nat 61
  engineSeq : Byte
  phase     : Phase
  sticky    : Sticky
  deriving DecidableEq, Repr

/-! ### Management responder (R150) -/

/-- The staging buffer's contents (R150). -/
structure Staged where
  table : TableId
  index : Nat
  data  : List Byte
  deriving DecidableEq, Repr

/-- The check detail (R150, R171). `table` is the code of the table byte, 0 after a pass. -/
structure CheckDetail where
  table  : Nat
  index  : Nat
  sub    : Nat
  reason : CheckReason
  deriving DecidableEq, Repr

/-- The management responder (R149, R150). `checkBegan` is the line clock at which the running table check began, absent
while none runs (R154). -/
structure Mgmt where
  engine      : Engine
  prefixArmed : Bool
  staging     : Option Staged
  lastResult  : Option Result
  detail      : CheckDetail
  checkBegan  : Option Clock
  deriving DecidableEq, Repr

/-! ### Notices (R166, R167) -/

/-- The fifteen notice kinds (R167). -/
inductive NoticeKind where
  | faultLatched | containEngaged | containCleared | planStarted | planSuspended | planResumed
  | stepFailed | planEnded | planNote | rackLeft | track | journalDropped | checkDone | wake | restarted
  deriving DecidableEq, Repr

/-- A notice (R166). -/
structure Notice where
  kind       : NoticeKind
  time       : Clock
  a          : Half
  b          : Half
  c          : Half
  overflowed : Bool
  deriving DecidableEq, Repr

/-! ### Time base (R72, R173, R179) -/

/-- The time base: the line clock, the watch deadline and the stored wake-on-traffic choice (R173, R174, R176), and the
silence timer's deadline, absent while it is stopped (R72). `ageDue` and `creditDue` are the MODEL's own marks (log entry
3): the clock has reached a value at which the age check, or in ARMED the credit tick, falls, and that event has not been
taken yet. -/
structure TimeBase where
  clock          : Clock
  watchDeadline  : Option Clock
  wakeOnTraffic  : Bool
  silence        : Option Clock
  ageDue         : Bool
  creditDue      : Bool
  deriving DecidableEq, Repr

/-! ### The whole part -/

/-- The state of the DW316, block by block, and the queue of the commands that wait, first in, first out. -/
structure State where
  tables  : Tables
  image   : Vector ImageCell 64
  monitor : Vector SigRun 48
  latches : Vector Latch 12
  contain : Containment
  journal : Journal
  levels  : List Level
  gate    : OrderGate
  arbiter : Arbiter
  ports   : Ports
  mgmt    : Mgmt
  notices : List Notice
  time    : TimeBase
  pending : List Instr
  deriving DecidableEq, Repr

/-- The reasons a step can fault: none. The manual gives every command of its table an effect in every state, so no
meaning of this model ends in a fault (NOTES.md, Stops). -/
inductive Fault where
  deriving DecidableEq, Repr

/-- The reasons a step can be refused. -/
inductive Refusal where
  /-- A command without a meaning yet, raised by exec's own arm alone (safe). No arm raises it now. -/
  | notModelled (mnemonic : String)
  deriving DecidableEq, Repr

/-! ### The state after RESET_N -/

/-- No reading taken, nothing applied (R59). -/
def ImageCell.reset : ImageCell :=
  { value := 0, status := .never, lastReading := none, pollRef := none, keepPending := false, applied := 0 }

/-- The initial run state of a signature (R63). -/
def SigRun.reset : SigRun := { count := 0, last := .none, anchor := none }

/-- A CLEAR latch (R73). -/
def Latch.reset : Latch := { state := .clear, count := 0, firstCause := none, ending := none }

/-- A gate entry as its route entry's commit leaves it (R128). -/
def GateCell.reset : GateCell :=
  { owner := .controller, held := .empty, handBack := none, forceOffDue := false, deferred := false }

/-- Every flag clear (R127). -/
def Sticky.reset : Sticky := { overrun := false, badC := false, badN := false, stray := false, badPhase := false }

/-- The tables after power-on and RESET_N: every entry absent, LINE unwritten, every class enabled and none watch-enabled
(R30, R32, R61, R77, R85, R87, R117, R118). The ignored bits of a CLASS entry are 0: DESIGN CHOICE, log entry 6. -/
def Tables.reset : Tables :=
  { line := none
    route := Vector.replicate 64 none
    zone := Vector.replicate 8 none
    curve := Vector.replicate 8 none
    signature := Vector.replicate 48 none
    cls := Vector.replicate 12 { enable := true, watch := false, ignored := 0 }
    select := Vector.replicate 12 none
    plan := Vector.replicate 288 none }

/-- The part after power-on and after RESET_N, each block by its own reset table (R26, R59, R63, R73, R79, R109, R127,
R148, R150, R168, R171, R179). -/
def State.reset : State :=
  { tables := Tables.reset
    image := Vector.replicate 64 ImageCell.reset
    monitor := Vector.replicate 48 SigRun.reset
    latches := Vector.replicate 12 Latch.reset
    contain := { engaged := false, firstCause := none, repeats := 0 }
    journal := { travel := 0, racks := [], nextTag := 0, overflow := false, entryLast := false, exitLast := false }
    levels := []
    gate := { cells := Vector.replicate 64 GateCell.reset, ctlMask := 0, planMask := 0, lock := none }
    arbiter := { queue := [], room := [], waiting := none, lastServed := .injected }
    ports := { cport := .idle, sending := none, trans := none, misses := Vector.replicate 61 0, engineSeq := 0,
               phase := .standby, sticky := Sticky.reset }
    mgmt := { engine := .config, prefixArmed := false, staging := none, lastResult := none,
              detail := { table := 0, index := 0, sub := 0, reason := .none }, checkBegan := none }
    notices := []
    time := { clock := 0, watchDeadline := none, wakeOnTraffic := false, silence := none,
              ageDue := false, creditDue := false }
    pending := [] }

end Sys2Proof.Machine
end

