-- ==== Sys2Proof/Machine/Operands.lean ====
section
/-! DEFINITION. Every operand form of the manual: multi-byte fields, the codes of section 8.7, the management arguments,
the table byte, and the data bytes of every table entry, read with the range checks of each table's own rule and written
back for TABLE_READ (R163 to R165). -/

namespace Sys2Proof.Machine

/-! ### Multi-byte fields: high byte first (R163) -/

/-- The 2-byte field with the given bytes. -/
def half (hi lo : Byte) : Half := hi ++ lo
/-- The high byte of a 2-byte field. -/
def hiByte (v : Half) : Byte := v.extractLsb' 8 8
/-- The low byte of a 2-byte field. -/
def loByte (v : Half) : Byte := v.extractLsb' 0 8
/-- A 2-byte field, high byte first. -/
def bytes2 (v : Half) : List Byte := [hiByte v, loByte v]
/-- A 3-byte field, high byte first. -/
def bytes3 (v : Travel) : List Byte := [v.extractLsb' 16 8, v.extractLsb' 8 8, v.extractLsb' 0 8]
/-- A 4-byte field, high byte first. -/
def bytes4 (v : Clock) : List Byte := [v.extractLsb' 24 8, v.extractLsb' 16 8, v.extractLsb' 8 8, v.extractLsb' 0 8]

/-- A 1-byte field of a number. -/
def byte (n : Nat) : Byte := BitVec.ofNat 8 n
/-- A 2-byte field of a number. -/
def word (n : Nat) : Half := BitVec.ofNat 16 n
/-- NONE or absent in a 1-byte field: every bit set (R163). -/
def noneByte : Byte := 0xFF
/-- NONE or absent in a 2-byte field (R163). -/
def noneHalf : Half := 0xFFFF
/-- A 1-byte field that takes NONE. -/
def optByte : Option Nat → Byte
  | none => noneByte
  | some n => byte n
/-- A 2-byte field that takes NONE. -/
def optHalf : Option Nat → Half
  | none => noneHalf
  | some n => word n
/-- A 4-byte field that takes absent. -/
def optBytes4 : Option Clock → List Byte
  | none => [0xFF, 0xFF, 0xFF, 0xFF]
  | some t => bytes4 t
/-- A signed value in a 2-byte field. -/
def signedHalf (v : Int) : Half := BitVec.ofInt 16 v
/-- One bit of a byte field. -/
def bit (b : Bool) (n : Nat) : Byte := if b then BitVec.ofNat 8 (2 ^ n) else 0

/-! ### Frames' payloads (R163) -/

/-- The payload of an ORDER. -/
def orderPayload (chan : Byte) (v : Half) : List Byte := chan :: bytes2 v
/-- The payload of an ACK. -/
def ackPayload (chan status : Byte) (applied : Half) : List Byte := chan :: status :: bytes2 applied
/-- The payload of a READING. -/
def readingPayload (chan : Byte) (v : Half) (status : Byte) : List Byte := [chan, hiByte v, loByte v, status]

end Sys2Proof.Machine

namespace Sys2Proof

/-- The channel of a frame that carries one: its first payload byte (R113), 0 when LEN is 0 (R124). -/
def Frame.chan (f : Frame) : Byte := f.payload.getD 0 0
/-- The value of an ORDER, bytes 1 and 2 of its payload. -/
def Frame.orderValue (f : Frame) : Half := Machine.half (f.payload.getD 1 0) (f.payload.getD 2 0)
/-- The status of an ACK. -/
def Frame.ackStatus (f : Frame) : Byte := f.payload.getD 1 0
/-- The applied value of an ACK. -/
def Frame.ackApplied (f : Frame) : Half := Machine.half (f.payload.getD 2 0) (f.payload.getD 3 0)
/-- The value of a READING. -/
def Frame.readingValue (f : Frame) : Half := Machine.half (f.payload.getD 1 0) (f.payload.getD 2 0)
/-- The status of a READING. -/
def Frame.readingStatus (f : Frame) : Byte := f.payload.getD 3 0

/-- An ORDER of LEN 3 (R113, R163). -/
def Frame.isOrder (f : Frame) : Bool := f.kind = Kind.order && f.payload.length = 3
/-- A POLL of LEN 1 (R113, R163). -/
def Frame.isPoll (f : Frame) : Bool := f.kind = Kind.poll && f.payload.length = 1

end Sys2Proof

namespace Sys2Proof.Machine

/-- ACK status codes (R163). -/
def AckStatus.done : Byte := 0
def AckStatus.refused : Byte := 1
def AckStatus.held : Byte := 2
def AckStatus.protectedStatus : Byte := 3
def AckStatus.locked : Byte := 4
def AckStatus.noReply : Byte := 5
/-- READING status codes (R163). -/
def ReadingStatus.ok : Byte := 0
def ReadingStatus.bad : Byte := 1
def ReadingStatus.noReply : Byte := 5

/-! ### Codes (R164, R165) -/

/-- Engine state codes of STATUS and RESTARTED (R164, R167). -/
def Engine.code : Engine → Nat
  | .config => 0 | .checking => 1 | .armed => 2 | .watch => 3

/-- Phase codes (R125). -/
def Phase.code : Phase → Nat
  | .standby => 0 | .fill => 1 | .heatUp => 2 | .production => 3 | .pause => 4 | .empty => 5

/-- The phase with a given code. -/
def Phase.ofCode : Nat → Option Phase
  | 0 => some .standby | 1 => some .fill | 2 => some .heatUp | 3 => some .production
  | 4 => some .pause | 5 => some .empty | _ => none

/-- Route kind codes (R165). -/
def RouteKind.code : RouteKind → Nat
  | .temp => 1 | .level => 2 | .pressure => 3 | .current => 4 | .leak => 5 | .eyeEntry => 6 | .eyeExit => 7
  | .advance => 8 | .heater => 9 | .pump => 10 | .inlet => 11 | .drain => 12 | .conveyor => 13 | .indicator => 14

/-- The route kind with a given code. -/
def RouteKind.ofCode : Nat → Option RouteKind
  | 1 => some .temp | 2 => some .level | 3 => some .pressure | 4 => some .current | 5 => some .leak
  | 6 => some .eyeEntry | 7 => some .eyeExit | 8 => some .advance | 9 => some .heater | 10 => some .pump
  | 11 => some .inlet | 12 => some .drain | 13 => some .conveyor | 14 => some .indicator | _ => none

/-- The sensor kinds (R45, R117). -/
def RouteKind.isSensor : RouteKind → Bool
  | .temp | .level | .pressure | .current | .leak | .eyeEntry | .eyeExit | .advance => true
  | .heater | .pump | .inlet | .drain | .conveyor | .indicator => false

/-- The actuator kinds (R45, R117). -/
def RouteKind.isActuator (k : RouteKind) : Bool := !k.isSensor

/-- Zone kind codes (R165). -/
def ZoneKind.code : ZoneKind → Nat
  | .none => 0 | .prewash => 1 | .wash => 2 | .rinse => 3 | .finalRinse => 4 | .dry => 5

/-- The zone kind with a given code. -/
def ZoneKind.ofCode : Nat → Option ZoneKind
  | 0 => some .none | 1 => some .prewash | 2 => some .wash | 3 => some .rinse | 4 => some .finalRinse
  | 5 => some .dry | _ => Option.none

/-- Signature test codes (R165). -/
def SigTest.code : SigTest → Nat
  | .above => 1 | .below => 2 | .equal => 3 | .diffAbove => 4 | .changeBelow => 5 | .stale => 6 | .bad => 7

/-- The signature test with a given code. -/
def SigTest.ofCode : Nat → Option SigTest
  | 1 => some .above | 2 => some .below | 3 => some .equal | 4 => some .diffAbove | 5 => some .changeBelow
  | 6 => some .stale | 7 => some .bad | _ => none

/-- Step kind codes (R84). -/
def StepKind.code : StepKind → Nat
  | .holdLine => 1 | .runLine => 2 | .capLine => 3 | .releaseLine => 4 | .set => 5 | .release => 6
  | .waitFor => 7 | .waitTime => 8 | .drain => 9 | .refill => 10 | .mark => 11 | .lockout => 12
  | .notify => 13 | .check => 14 | .endOk => 15 | .endFail => 16

/-- The step kind with a given code. -/
def StepKind.ofCode : Nat → Option StepKind
  | 1 => some .holdLine | 2 => some .runLine | 3 => some .capLine | 4 => some .releaseLine | 5 => some .set
  | 6 => some .release | 7 => some .waitFor | 8 => some .waitTime | 9 => some .drain | 10 => some .refill
  | 11 => some .mark | 12 => some .lockout | 13 => some .notify | 14 => some .check | 15 => some .endOk
  | 16 => some .endFail | _ => none

/-- The conveyor steps (R84). -/
def StepKind.isConveyor : StepKind → Bool
  | .holdLine | .runLine | .capLine | .releaseLine => true
  | _ => false

/-- Table codes of the table byte (R164). -/
def TableId.code : TableId → Nat
  | .line => 1 | .route => 2 | .zone => 3 | .curve => 4 | .signature => 5 | .cls => 6 | .select => 7 | .plan => 8

/-- The table with a given code. -/
def TableId.ofCode : Nat → Option TableId
  | 1 => some .line | 2 => some .route | 3 => some .zone | 4 => some .curve | 5 => some .signature
  | 6 => some .cls | 7 => some .select | 8 => some .plan | _ => none

/-- Live tables are CURVE and CLASS; the others are structural (R159). -/
def TableId.isLive : TableId → Bool
  | .curve | .cls => true
  | _ => false

/-- Result codes (R164). -/
def Result.code : Result → Nat
  | .ok => 0 | .accepted => 1 | .notPrefixed => 2 | .wrongState => 3 | .busy => 4 | .badIndex => 5 | .badValue => 6
  | .duplicate => 7 | .stageMismatch => 8 | .notLive => 9 | .planActive => 10 | .notIdle => 11
  | .stillMatching => 12 | .notSettled => 13 | .unknown => 14 | .empty => 15

/-- Check reason codes (R164). -/
def CheckReason.code : CheckReason → Nat
  | .none => 0 | .lineUnwritten => 1 | .absentRef => 2 | .wrongKind => 3 | .missingRef => 4 | .span => 5
  | .overlap => 6 | .exitShort => 7 | .heaterCount => 8 | .classRange => 9 | .failTarget => 10 | .markOrder => 11

/-- Notice kind codes (R167). -/
def NoticeKind.code : NoticeKind → Nat
  | .faultLatched => 1 | .containEngaged => 2 | .containCleared => 3 | .planStarted => 4 | .planSuspended => 5
  | .planResumed => 6 | .stepFailed => 7 | .planEnded => 8 | .planNote => 9 | .rackLeft => 10 | .track => 11
  | .journalDropped => 12 | .checkDone => 13 | .wake => 14 | .restarted => 15

/-- Source codes of LATCH_READ and FAULT_LATCHED (R164, R167). -/
def Source.code : Source → Nat
  | .signature i => i | .node => 0x80 | .silence => 0x81 | .track => 0x82

/-- Image status codes (R164). -/
def ImageStatus.code : ImageStatus → Nat
  | .never => 0 | .fresh => 1 | .stale => 2 | .bad => 3

/-- Latch state codes (R164). -/
def LatchState.code : LatchState → Nat
  | .clear => 0 | .pending => 1 | .recovering => 2 | .resolved => 3 | .failed => 4

/-- Ending codes (R164, R167); absent is 0 in LATCH_READ. -/
def Ending.code : Ending → Nat
  | .ok => 1 | .fail => 2 | .noPlan => 3

/-- Last outcome codes (R164). -/
def LastOutcome.code : LastOutcome → Nat
  | .none => 0 | .hit => 1 | .no => 2

/-- Rack state codes (R164). -/
def RackState.code : RackState → Nat
  | .entering => 0 | .inLine => 1 | .atExit => 2

/-- Owner codes (R164). -/
def Owner.code : Owner → Nat
  | .controller => 0 | .level d => d + 1 | .retained => 4

/-- Wait codes (R164). -/
def WaitKind.code : WaitKind → Nat
  | .none => 0 | .ack => 1 | .reading => 2 | .time => 3 | .queueRoom => 4

/-! ### Management requests (R164) -/

/-- The management requests. -/
inductive Request where
  | status | noticeFetch | rackRead | latchRead | channelRead | tableRead | levelRead | seqLock | seqUnlock
  | tableWrite | arm | disarm | park | wake | faultClear | containClear | retainRelease | maskSet | softReset
  deriving DecidableEq, Repr

/-- The request with a given code (R164). -/
def Request.ofCode : Nat → Option Request
  | 0x01 => some .status | 0x02 => some .noticeFetch | 0x03 => some .rackRead | 0x04 => some .latchRead
  | 0x05 => some .channelRead | 0x06 => some .tableRead | 0x07 => some .levelRead | 0x08 => some .seqLock
  | 0x09 => some .seqUnlock | 0x10 => some .tableWrite | 0x11 => some .arm | 0x12 => some .disarm
  | 0x13 => some .park | 0x14 => some .wake | 0x15 => some .faultClear | 0x16 => some .containClear
  | 0x17 => some .retainRelease | 0x18 => some .maskSet | 0x19 => some .softReset | _ => none

/-- A request's code (R164). -/
def Request.code : Request → Byte
  | .status => 0x01 | .noticeFetch => 0x02 | .rackRead => 0x03 | .latchRead => 0x04 | .channelRead => 0x05
  | .tableRead => 0x06 | .levelRead => 0x07 | .seqLock => 0x08 | .seqUnlock => 0x09 | .tableWrite => 0x10
  | .arm => 0x11 | .disarm => 0x12 | .park => 0x13 | .wake => 0x14 | .faultClear => 0x15 | .containClear => 0x16
  | .retainRelease => 0x17 | .maskSet => 0x18 | .softReset => 0x19

/-- The guarded requests (R153). -/
def Request.guarded : Request → Bool
  | .tableWrite | .arm | .disarm | .park | .wake | .faultClear | .containClear | .retainRelease | .maskSet
  | .softReset => true
  | _ => false

/-- The table code of a table byte, bits 7 to 4 (R164). -/
def tableNibble (tb : Byte) : Nat := (tb >>> 4).toNat
/-- Bit 3 of a table byte, which must be 0 (R164). -/
def tableBit3 (tb : Byte) : Bool := tb.getLsbD 3
/-- Bit 2 of a table byte, the RUN view (R164). -/
def tableRun (tb : Byte) : Bool := tb.getLsbD 2
/-- Bits 1 and 0 of a table byte, the part: SINGLE 0, FIRST 1, LAST 2 (R164). -/
def tablePart (tb : Byte) : Nat := (tb &&& 3).toNat

/-- How many argument bytes a request requires (R152, R164). TABLE_READ of the PLAN table also requires the step. -/
def Request.minArgs (r : Request) (args : List Byte) : Nat :=
  match r with
  | .rackRead => 4
  | .latchRead | .channelRead | .park | .faultClear => 1
  | .tableRead => if tableNibble (args.getD 0 0) = 8 then 3 else 2
  | .levelRead | .tableWrite | .maskSet => 2
  | _ => 0

/-! ### Table entries (R165) -/

/-- A ref field that takes NONE: 0 to 63 or 0xFF; anything else is refused. -/
def parseRef (b : Byte) : Option (Option Nat) :=
  if b = noneByte then some none else if b.toNat ≤ 63 then some (some b.toNat) else none

/-- A zone field that takes NONE: 0 to 7 or 0xFF. -/
def parseZoneRef (b : Byte) : Option (Option Nat) :=
  if b = noneByte then some none else if b.toNat ≤ 7 then some (some b.toNat) else none

/-- A SELECT cell: 0 to 23 or 0xFF (R87). -/
def parseCell (b : Byte) : Option (Option Nat) :=
  if b = noneByte then some none else if b.toNat ≤ 23 then some (some b.toNat) else none

/-- The LINE record's bytes, with the ranges of R118. -/
def parseLine : List Byte → Option LineRecord
  | [t, si, en, ex, ad, co, ind, ph, pl, tol, ml, wi] =>
    match parseRef co, parseRef ind with
    | some co', some ind' =>
      let pos := (half ph pl).toNat
      if 5 ≤ t.toNat ∧ t.toNat ≤ 50 ∧ si.toNat ≤ 60 ∧ en.toNat ≤ 63 ∧ ex.toNat ≤ 63 ∧ ad.toNat ≤ 63 ∧
          1 ≤ pos ∧ pos ≤ 1600 ∧ tol.toNat ≤ 63 ∧ 40 ≤ ml.toNat ∧ ml.toNat ≤ 200 ∧ 1 ≤ wi.toNat ∧ wi.toNat ≤ 60 then
        some { replyTimeout := t.toNat, silence := si.toNat, entryEye := en.toNat, exitEye := ex.toNat,
               advance := ad.toNat, conveyor := co', indicator := ind', exitPos := pos, exitTol := tol.toNat,
               maxLength := ml.toNat, watchInterval := wi.toNat }
      else none
    | _, _ => none
  | _ => none

/-- The LINE record's bytes as committed. -/
def encodeLine (l : LineRecord) : List Byte :=
  [byte l.replyTimeout, byte l.silence, byte l.entryEye, byte l.exitEye, byte l.advance, optByte l.conveyor,
   optByte l.indicator, hiByte (word l.exitPos), loByte (word l.exitPos), byte l.exitTol, byte l.maxLength,
   byte l.watchInterval]

/-- A ROUTE entry's bytes, with the ranges of R117. -/
def parseRoute : List Byte → Option RouteEntry
  | [n, ch, k, z, g, kf, st, cmin, cmax] =>
    match RouteKind.ofCode k.toNat, parseZoneRef z with
    | some kind, some zone =>
      if 1 ≤ n.toNat ∧ n.toNat ≤ 60 ∧ ch.toNat ≤ 15 ∧ g.toNat ≤ 7 ∧ cmin.toNat ≤ 100 ∧ cmax.toNat ≤ 100 ∧
          cmin.toNat ≤ cmax.toNat then
        some { node := n, chan := ch, kind := kind, zone := zone, group := g.toNat, keepFresh := kf.toNat,
               stale := st.toNat, clampMin := cmin.toNat, clampMax := cmax.toNat }
      else none
    | _, _ => none
  | _ => none

/-- A ROUTE entry's bytes as committed. -/
def encodeRoute (r : RouteEntry) : List Byte :=
  [r.node, r.chan, byte r.kind.code, optByte r.zone, byte r.group, byte r.keepFresh, byte r.stale, byte r.clampMin,
   byte r.clampMax]

/-- A rate-and-offset byte: the rate in bits 5 to 0 (R165). -/
def rateOf (b : Byte) : Nat := (b &&& 0x3F).toNat
/-- A rate-and-offset byte: the offset code in bits 7 and 6 (R165). -/
def offsetOf (b : Byte) : Nat := (b >>> 6).toNat
/-- A rate-and-offset byte. -/
def rateByte (rate offset : Nat) : Byte := byte (rate + 64 * offset)

/-- A ZONE entry's bytes, FIRST part and LAST part joined, with the ranges of R28 and R29. -/
def parseZone : List Byte → List Byte → Option ZoneEntry
  | [k, sh, sl, eh, el, te, pr, hc, hth, htl, ac, ath, atl], [lv, he, pu, inl, dr, vol, drb, rfb, emh, eml, oph, opl] =>
    match ZoneKind.ofCode k.toNat, parseRef te, parseRef pr, parseRef lv, parseRef he, parseRef pu, parseRef inl,
        parseRef dr with
    | some kind, some te', some pr', some lv', some he', some pu', some inl', some dr' =>
      let start := (half sh sl).toNat
      let stop := (half eh el).toNat
      let em := (half emh eml).toNat
      let op := (half oph opl).toNat
      if start ≤ 1600 ∧ stop ≤ 1600 ∧ hc.toNat ≤ 7 ∧ ac.toNat ≤ 7 ∧ 1 ≤ vol.toNat ∧ vol.toNat ≤ 40 ∧ em ≤ 1000 ∧
          op ≤ 1000 then
        some { kind := kind, start := start, stop := stop, temp := te', press := pr', heatCurve := hc.toNat,
               heatTarget := (half hth htl).toNat, actCurve := ac.toNat, actTarget := (half ath atl).toNat,
               level := lv', heater := he', pump := pu', inlet := inl', drain := dr', volume := vol.toNat,
               drainRate := rateOf drb, drainOffset := offsetOf drb, refillRate := rateOf rfb,
               refillOffset := offsetOf rfb, emptyLevel := em, operLevel := op }
      else none
    | _, _, _, _, _, _, _, _ => none
  | _, _ => none

/-- A ZONE entry's FIRST part as committed. -/
def encodeZoneFirst (z : ZoneEntry) : List Byte :=
  byte z.kind.code :: bytes2 (word z.start) ++ bytes2 (word z.stop) ++
  [optByte z.temp, optByte z.press, byte z.heatCurve] ++ bytes2 (word z.heatTarget) ++
  (byte z.actCurve :: bytes2 (word z.actTarget))

/-- A ZONE entry's LAST part as committed. -/
def encodeZoneLast (z : ZoneEntry) : List Byte :=
  [optByte z.level, optByte z.heater, optByte z.pump, optByte z.inlet, optByte z.drain, byte z.volume,
   rateByte z.drainRate z.drainOffset, rateByte z.refillRate z.refillOffset] ++
  bytes2 (word z.emptyLevel) ++ bytes2 (word z.operLevel)

/-- Breakpoints, each x (2 bytes) then w (R165). -/
def parsePoints : List Byte → List Breakpoint
  | xh :: xl :: w :: rest => { x := (half xh xl).toNat, w := w.toNat } :: parsePoints rest
  | _ => []

/-- Breakpoints as committed. -/
def encodePoints : List Breakpoint → List Byte
  | [] => []
  | p :: ps => bytes2 (word p.x) ++ byte p.w :: encodePoints ps

/-- The x values of the first breakpoints strictly ascend (R32). -/
def ascending : List Breakpoint → Bool
  | p :: q :: rest => p.x < q.x && ascending (q :: rest)
  | _ => true

/-- A CURVE entry from its count and its eight breakpoints, with the ranges of R33. Breakpoints beyond the count are
ignored. -/
def parseCurve (count : Byte) (pts : List Breakpoint) : Option CurveEntry :=
  let used := pts.take count.toNat
  if 2 ≤ count.toNat ∧ count.toNat ≤ 8 ∧ used.all (fun p => p.x ≤ 1500) ∧ ascending used then
    some { count := count.toNat, points := pts }
  else none

/-- A CURVE's SINGLE or FIRST part as committed. -/
def encodeCurveFirst (c : CurveEntry) : List Byte := byte c.count :: encodePoints (c.points.take 4)

/-- A CURVE's LAST part as committed. -/
def encodeCurveLast (c : CurveEntry) : List Byte := encodePoints (c.points.drop 4)

/-- A gate byte: ref in bits 6 to 0, ON in bit 7 (R165). -/
def parseGate (b : Byte) : GateCond := { ref := (b &&& 0x7F).toNat, on := b.getLsbD 7 }
/-- A gate byte. -/
def encodeGate (g : GateCond) : Byte := byte (g.ref + if g.on then 128 else 0)

/-- A SIGNATURE entry's bytes, with the ranges of R61. -/
def parseSignature : List Byte → Option SigEntry
  | [t, a, b, thh, thl, wh, wl, gc, g1, g2, pe, cl, z] =>
    match SigTest.ofCode t.toNat, parseRef b, parseZoneRef z with
    | some test, some b', some z' =>
      let th := (half thh thl).toInt
      let win := (half wh wl).toNat
      if a.toNat ≤ 63 ∧ -1000 ≤ th ∧ th ≤ 1000 ∧ 1 ≤ win ∧ win ≤ 600 ∧ gc.toNat ≤ 2 ∧
          (1 ≤ gc.toNat → (parseGate g1).ref ≤ 63) ∧ (2 ≤ gc.toNat → (parseGate g2).ref ≤ 63) ∧
          1 ≤ pe.toNat ∧ pe.toNat ≤ 15 ∧ cl.toNat ≤ 11 then
        some { test := test, chA := a.toNat, chB := b', threshold := th, window := win, gateCount := gc.toNat,
               gate1 := parseGate g1, gate2 := parseGate g2, persistence := pe.toNat, cls := cl.toNat, zone := z' }
      else none
    | _, _, _ => none
  | _ => none

/-- A SIGNATURE entry's bytes as committed. -/
def encodeSignature (e : SigEntry) : List Byte :=
  [byte e.test.code, byte e.chA, optByte e.chB] ++ bytes2 (signedHalf e.threshold) ++ bytes2 (word e.window) ++
  [byte e.gateCount, encodeGate e.gate1, encodeGate e.gate2, byte e.persistence, byte e.cls, optByte e.zone]

/-- A CLASS entry's byte: enable in bit 0, watch-enable in bit 1, the other bits ignored (R165). -/
def parseClass : List Byte → Option ClassEntry
  | [b] => some { enable := b.getLsbD 0, watch := b.getLsbD 1, ignored := b.extractLsb' 2 6 }
  | _ => none

/-- A CLASS entry's byte as committed. -/
def encodeClass (c : ClassEntry) : List Byte := [c.ignored ++ BitVec.ofBool c.watch ++ BitVec.ofBool c.enable]

/-- A SELECT row's bytes, with the range of R87. -/
def parseSelect : List Byte → Option SelectRow
  | [a, b, c, d, e, f] =>
    match parseCell a, parseCell b, parseCell c, parseCell d, parseCell e, parseCell f with
    | some a', some b', some c', some d', some e', some f' =>
      some { standby := a', fill := b', heatUp := c', production := d', pause := e', empty := f' }
    | _, _, _, _, _, _ => none
  | _ => none

/-- A SELECT row's bytes as committed. -/
def encodeSelect (r : SelectRow) : List Byte :=
  [optByte r.standby, optByte r.fill, optByte r.heatUp, optByte r.production, optByte r.pause, optByte r.empty]

/-- The route ref of a WAIT_FOR subject, bits 5 to 0 (R165). -/
def waitRef (subject : Byte) : Nat := (subject &&& 0x3F).toNat
/-- The test of a WAIT_FOR subject, bits 7 and 6; 3 is refused (R165). -/
def waitTest (subject : Byte) : Option WaitTest :=
  match (subject >>> 6).toNat with
  | 0 => some .above | 1 => some .below | 2 => some .equal | _ => none

/-- The fields that a step's kind uses lie in the ranges of R84 (R85). -/
def stepFieldsOk (k : StepKind) (subject : Byte) (value : Half) : Bool :=
  match k with
  | .runLine | .capLine => value.toNat ≤ 100
  | .set => subject.toNat ≤ 63 && value.toNat ≤ 100
  | .release => subject.toNat ≤ 63
  | .waitFor => (waitTest subject).isSome
  | .drain | .refill => subject.toNat ≤ 7
  | .mark => subject.toNat ≤ 7 && value.toNat ≤ 7
  | .lockout => value.toNat ≤ 1
  | .holdLine | .releaseLine | .waitTime | .notify | .check | .endOk | .endFail => true

/-- A fail target byte: 1 to 11, or 0xFF for FAIL (R84, R165). -/
def parseFail (b : Byte) : Option (Option Nat) :=
  if b = noneByte then some none else if 1 ≤ b.toNat ∧ b.toNat ≤ 11 then some (some b.toNat) else none

/-- A PLAN step slot's bytes after the step index, with the ranges of R85. -/
def parsePlanSlot : List Byte → Option PlanSlot
  | [_, k, su, vh, vl, th, tl, ft] =>
    match StepKind.ofCode k.toNat, parseFail ft with
    | some kind, some ft' =>
      if stepFieldsOk kind su (half vh vl) then
        some { kind := kind, subject := su, value := half vh vl, timeout := half th tl, failTarget := ft' }
      else none
    | _, _ => none
  | _ => none

/-- A PLAN step slot's bytes as committed, with its step index. -/
def encodePlanSlot (step : Nat) (p : PlanSlot) : List Byte :=
  [byte step, byte p.kind.code, p.subject] ++ bytes2 p.value ++ bytes2 p.timeout ++ [optByte p.failTarget]

/-- How many data bytes a table's part has: `none` where the table does not accept the part (R159, R165). -/
def partLength : TableId → Nat → Option Nat
  | .line, 0 => some 12
  | .route, 0 => some 9
  | .zone, 1 => some 13
  | .zone, 2 => some 12
  | .curve, 0 => some 13
  | .curve, 1 => some 13
  | .curve, 2 => some 12
  | .signature, 0 => some 13
  | .cls, 0 => some 1
  | .select, 0 => some 6
  | .plan, 0 => some 8
  | _, _ => none

/-- The index range of a table: how many entries it has (R159). -/
def TableId.size : TableId → Nat
  | .line => 1 | .route => 64 | .zone => 8 | .curve => 8 | .signature => 48 | .cls => 12 | .select => 12 | .plan => 24

end Sys2Proof.Machine
end

