-- ==== Sys2Proof/Machine/Wire.lean ====
section
/-! DEFINITION. Frames on the wire: the CRC-16, the byte layout of a trunk frame and the check of a received frame
(R110, R163). -/

namespace Sys2Proof.Machine

/-- One bit step of the CRC: polynomial x^16 + x^12 + x^5 + 1, most significant bit first (R110). -/
def crcShift (c : Half) : Half := if c.msb then (c <<< 1) ^^^ 0x1021 else c <<< 1

/-- One byte of the CRC (R110). -/
def crcByte (c : Half) (b : Byte) : Half :=
  crcShift (crcShift (crcShift (crcShift (crcShift (crcShift (crcShift (crcShift (c ^^^ half b 0))))))))

/-- The CRC-16 of a byte string: start 0xFFFF, no final XOR (R110). -/
def crc16 (bytes : List Byte) : Half := bytes.foldl crcByte 0xFFFF

/-- Byte 2 of a frame: KIND in bits 7 to 4, the flags ATTN, REWRITTEN, IMAGE and ENGINE in bits 3 to 0 (R163). -/
def kindByte (kind : BitVec 4) (fl : FrameFlags) : Byte :=
  kind ++ BitVec.ofBool fl.attn ++ BitVec.ofBool fl.rewritten ++ BitVec.ofBool fl.image ++ BitVec.ofBool fl.engine

/-- A frame's bytes from byte 0 to the end of the payload (R163). -/
def frameBody (f : Sys2Proof.Frame) : List Byte :=
  f.dst :: f.src :: kindByte f.kind f.flags :: f.seq :: byte f.payload.length :: f.payload

/-- A frame as sent: its body and the CRC computed over it, high byte first (R110, R111, R163). -/
def encodeFrame (f : Sys2Proof.Frame) : List Byte := frameBody f ++ bytes2 (crc16 (frameBody f))

/-- The frame that a body spells. -/
def readBody : List Byte → Option Sys2Proof.Frame
  | d :: s :: k :: q :: _ :: payload =>
    some { dst := d, src := s, kind := k.extractLsb' 4 4,
           flags := { attn := k.getLsbD 3, rewritten := k.getLsbD 2, image := k.getLsbD 1, engine := k.getLsbD 0 },
           seq := q, payload := payload }
  | _ => none

/-- The received characters are malformed (R110): shorter than 7 bytes, LEN above 16, LEN against the number of bytes
received, a top bit of DST set, or a CRC that does not agree. -/
def malformedBytes (bytes : List Byte) : Bool :=
  let len := (bytes.getD 4 0).toNat
  bytes.length < 7 || len > 16 || bytes.length ≠ 5 + len + 2 || (bytes.getD 0 0) &&& 0xC0 ≠ 0 ||
    bytes2 (crc16 (bytes.take (5 + len))) ≠ bytes.drop (5 + len)

/-- The frame that received characters spell, `none` when they are malformed (R110). -/
def parseFrame (bytes : List Byte) : Option Sys2Proof.Frame :=
  if malformedBytes bytes then none else readBody (bytes.take (bytes.length - 2))

end Sys2Proof.Machine

namespace Sys2Proof

/-- A frame given by its fields would be malformed on the wire: more than 16 payload bytes, or a top bit of DST set
(R110). -/
def Frame.malformed (f : Frame) : Bool := f.payload.length > 16 || f.dst &&& 0xC0 ≠ 0

end Sys2Proof
end

