-- ==== Sys2Proof/Machine/Ops.lean ====
section
/-! DEFINITION. The named operations over the part's state: reads of tables, image, gate and latches, one updater per
block, the notice queue (R168), the injected-frame queue (R142) and the engine's own frames (R111). -/

namespace Sys2Proof.Machine

/-! ### Reads -/

/-- The current line clock (R173). -/
def State.now (s : State) : Clock := s.time.clock
/-- The engine state (R149). -/
def State.engine (s : State) : Engine := s.mgmt.engine
/-- The route entry at an index, `none` when absent. -/
def State.routeAt (s : State) (i : Nat) : Option RouteEntry := (s.tables.route[i]?).join
/-- The ZONE entry at an index. -/
def State.zoneAt (s : State) (z : Nat) : Option ZoneEntry := (s.tables.zone[z]?).join
/-- The CURVE entry at an index. -/
def State.curveAt (s : State) (c : Nat) : Option CurveEntry := (s.tables.curve[c]?).join
/-- The SIGNATURE entry at an index. -/
def State.sigAt (s : State) (g : Nat) : Option SigEntry := (s.tables.signature[g]?).join
/-- The CLASS entry of a class (R77). -/
def State.classAt (s : State) (c : Nat) : ClassEntry :=
  s.tables.cls[c]?.getD { enable := false, watch := false, ignored := 0 }
/-- The PLAN slot of a plan and step, `none` when absent or out of range (R84). -/
def State.planSlot (s : State) (plan step : Nat) : Option PlanSlot :=
  if step < Config.steps then (s.tables.plan[Config.steps * plan + step]?).join else none
/-- The image at a route index (R45). -/
def State.imageAt (s : State) (i : Nat) : ImageCell := s.image[i]?.getD ImageCell.reset
/-- The gate at a route index (R128). -/
def State.gateAt (s : State) (i : Nat) : GateCell := s.gate.cells[i]?.getD GateCell.reset
/-- The run state of a signature (R63). -/
def State.runAt (s : State) (g : Nat) : SigRun := s.monitor[g]?.getD SigRun.reset
/-- The latch of a class (R73). -/
def State.latchAt (s : State) (c : Nat) : Latch := s.latches[c]?.getD Latch.reset
/-- The miss count of a node (R122). -/
def State.missesAt (s : State) (node : Byte) : Nat := s.ports.misses[node.toNat]?.getD 0

/-- The cell of a SELECT row for a phase (R87). -/
def SelectRow.cell (r : SelectRow) : Phase → Option Nat
  | .standby => r.standby | .fill => r.fill | .heatUp => r.heatUp | .production => r.production
  | .pause => r.pause | .empty => r.empty

/-- The SELECT cell of a class for a phase; every cell of a row never written is NONE (R87). -/
def State.selectCell (s : State) (c : Nat) (p : Phase) : Option Nat :=
  match (s.tables.select[c]?).join with
  | some row => row.cell p
  | none => none

/-- The present route entry that holds a (node, channel) pair, with its index; at most one does (R117). -/
def State.findRoute (s : State) (node chan : Byte) : Option (Nat × RouteEntry) :=
  (List.range Config.routes).findSome? fun i =>
    match s.routeAt i with
    | some r => if r.node = node ∧ r.chan = chan then some (i, r) else none
    | none => none

/-- The route entry at an index is present and of a sensor kind. -/
def State.isSensor (s : State) (i : Nat) : Bool :=
  match s.routeAt i with
  | some r => r.kind.isSensor
  | none => false

/-- The route entry at an index is present and of the given kind. -/
def State.hasKind (s : State) (i : Nat) (k : RouteKind) : Bool :=
  match s.routeAt i with
  | some r => r.kind = k
  | none => false

/-- The controller silence limit in force: 0 until LINE is written (R118). -/
def State.silenceLimit (s : State) : Nat :=
  match s.tables.line with
  | some l => l.silence
  | none => 0

/-- The node reply timeout in force, ms: 20 until LINE is written (R118). -/
def State.replyTimeout (s : State) : Nat :=
  match s.tables.line with
  | some l => l.replyTimeout
  | none => Config.unwrittenReplyTimeout

/-- The conveyor speed channel that LINE names (R118). -/
def State.conveyorRef (s : State) : Option Nat :=
  match s.tables.line with
  | some l => l.conveyor
  | none => none

/-- A count of seconds in line-clock units of 10 ms (R1, Time). -/
def seconds (n : Nat) : Clock := BitVec.ofNat 32 (100 * n)
/-- A count of 100 ms units in line-clock units. -/
def tenths (n : Nat) : Clock := BitVec.ofNat 32 (10 * n)

/-- A deadline has been reached: the clock has advanced to that value (R173). No deadline lies half a wrap ahead, so the
clock has reached it when it stands less than half a wrap beyond it (log entry 4). -/
def reached (deadline clock : Clock) : Bool := (clock - deadline).toNat < 2 ^ 31

/-- A deadline that is present has been reached. -/
def dueAt (deadline : Option Clock) (clock : Clock) : Bool :=
  match deadline with
  | some d => reached d clock
  | none => false

/-! ### Updaters, one per block -/

/-- Replaces the tables. -/
def State.setTables (t : Tables) (s : State) : State := { s with tables := t }
/-- Updates the image at a route index. -/
def State.modImage (i : Nat) (f : ImageCell → ImageCell) (s : State) : State :=
  { s with image := s.image.setIfInBounds i (f (s.imageAt i)) }
/-- Replaces the run state of a signature. -/
def State.setRun (g : Nat) (r : SigRun) (s : State) : State := { s with monitor := s.monitor.setIfInBounds g r }
/-- Replaces a latch. -/
def State.setLatch (c : Nat) (l : Latch) (s : State) : State := { s with latches := s.latches.setIfInBounds c l }
/-- Replaces the containment unit. -/
def State.setContain (c : Containment) (s : State) : State := { s with contain := c }
/-- Replaces the journal. -/
def State.setJournal (j : Journal) (s : State) : State := { s with journal := j }
/-- Replaces the plan levels. -/
def State.setLevels (l : List Level) (s : State) : State := { s with levels := l }
/-- Updates the gate entry at a route index. -/
def State.modGate (i : Nat) (f : GateCell → GateCell) (s : State) : State :=
  { s with gate := { s.gate with cells := s.gate.cells.setIfInBounds i (f (s.gateAt i)) } }
/-- Turns the sequence lock on with a deadline, or off (R145). -/
def State.setLock (l : Option Clock) (s : State) : State := { s with gate := { s.gate with lock := l } }
/-- Writes both protection masks (R129). -/
def State.setMasks (ctl plan : Byte) (s : State) : State :=
  { s with gate := { s.gate with ctlMask := ctl, planMask := plan } }
/-- Replaces the injected-frame queue. -/
def State.setQueue (q : List QFrame) (s : State) : State := { s with arbiter := { s.arbiter with queue := q } }
/-- Replaces the room list. -/
def State.setRoom (r : List RoomEntry) (s : State) : State := { s with arbiter := { s.arbiter with room := r } }
/-- Replaces the controller frame waiting for the N-side. -/
def State.setWaiting (c : Option CtlFrame) (s : State) : State := { s with arbiter := { s.arbiter with waiting := c } }
/-- Sets last served (R146). -/
def State.setServed (v : Served) (s : State) : State := { s with arbiter := { s.arbiter with lastServed := v } }
/-- Replaces the state of the controller transaction. -/
def State.setCPort (c : CPort) (s : State) : State := { s with ports := { s.ports with cport := c } }
/-- Replaces the node transaction. -/
def State.setTrans (t : Option NodeTrans) (s : State) : State := { s with ports := { s.ports with trans := t } }
/-- Replaces the frame being sent on the N-port. -/
def State.setSending (f : Option Sys2Proof.Frame) (s : State) : State :=
  { s with ports := { s.ports with sending := f } }
/-- Replaces a node's miss count. -/
def State.setMisses (node : Byte) (n : Nat) (s : State) : State :=
  { s with ports := { s.ports with misses := s.ports.misses.setIfInBounds node.toNat n } }
/-- Replaces the tracked phase. -/
def State.setPhase (p : Phase) (s : State) : State := { s with ports := { s.ports with phase := p } }
/-- Replaces the sticky flags. -/
def State.setSticky (f : Sticky) (s : State) : State := { s with ports := { s.ports with sticky := f } }
/-- Advances the engine sequence counter, wrapping (R111). -/
def State.bumpSeq (s : State) : State := { s with ports := { s.ports with engineSeq := s.ports.engineSeq + 1 } }
/-- Sets or clears prefix-armed (R151). -/
def State.setPrefix (b : Bool) (s : State) : State := { s with mgmt := { s.mgmt with prefixArmed := b } }
/-- Replaces the staging buffer's contents. -/
def State.setStaging (b : Option Staged) (s : State) : State := { s with mgmt := { s.mgmt with staging := b } }
/-- Writes the last result. -/
def State.setResult (r : Result) (s : State) : State := { s with mgmt := { s.mgmt with lastResult := some r } }
/-- Writes the check detail. -/
def State.setDetail (d : CheckDetail) (s : State) : State := { s with mgmt := { s.mgmt with detail := d } }
/-- Records when the running table check began, or that none runs. -/
def State.setCheck (c : Option Clock) (s : State) : State := { s with mgmt := { s.mgmt with checkBegan := c } }
/-- Replaces the notice queue. -/
def State.setNotices (n : List Notice) (s : State) : State := { s with notices := n }
/-- Replaces the watch deadline. -/
def State.setWatch (d : Option Clock) (s : State) : State := { s with time := { s.time with watchDeadline := d } }
/-- Replaces the silence timer's deadline. -/
def State.setSilence (d : Option Clock) (s : State) : State := { s with time := { s.time with silence := d } }

/-- Stores the wake-on-traffic choice (R174). -/
def State.setTraffic (b : Bool) (s : State) : State := { s with time := { s.time with wakeOnTraffic := b } }
/-- Replaces the mark that an age check is due (log entry 3). -/
def State.setAgeDue (b : Bool) (s : State) : State := { s with time := { s.time with ageDue := b } }
/-- Replaces the mark that a credit tick is due (log entry 3). -/
def State.setCreditDue (b : Bool) (s : State) : State := { s with time := { s.time with creditDue := b } }
/-- Sets the line clock. -/
def State.setClock (t : Clock) (s : State) : State := { s with time := { s.time with clock := t } }

/-! ### Notices (R168) -/

/-- The newest notice of a queue has its overflowed-after flag set (R168). -/
def markOverflow : List Notice → List Notice
  | [] => []
  | [n] => [{ n with overflowed := true }]
  | n :: m :: rest => n :: markOverflow (m :: rest)

/-- A notice joins the queue, or is discarded and marked against the newest one held (R168). -/
def pushNotice (q : List Notice) (n : Notice) : List Notice :=
  if q.length < Config.noticeCapacity then q ++ [n] else markOverflow q

/-- Queues a notice with a line time of its own. -/
def State.notifyAt (t : Clock) (k : NoticeKind) (a b c : Half) (s : State) : State :=
  s.setNotices (pushNotice s.notices { kind := k, time := t, a := a, b := b, c := c, overflowed := false })

/-- Queues a notice with the line clock as it stands (R166). -/
def State.notify (k : NoticeKind) (a b c : Half) (s : State) : State := s.notifyAt s.now k a b c

/-! ### The silence timer (R72) -/

/-- The phases in which the silence timer runs (R72). -/
def Phase.running : Phase → Bool
  | .fill | .heatUp | .production => true
  | .standby | .pause | .empty => false

/-- The three conditions under which the silence timer runs (R72). -/
def State.silenceRuns (s : State) : Bool :=
  s.engine = .armed && s.ports.phase.running && 1 ≤ s.silenceLimit && s.silenceLimit ≤ 60

/-- Starts or stops the silence timer after a change of engine state or phase (R72). -/
def State.syncSilence (s : State) : State :=
  if s.silenceRuns then
    if s.time.silence.isSome then s else s.setSilence (some (s.now + seconds s.silenceLimit))
  else s.setSilence none

/-- An accepted controller frame restarts the silence timer while it runs (R72, R112). -/
def State.restartSilence (s : State) : State :=
  if s.time.silence.isSome then s.setSilence (some (s.now + seconds s.silenceLimit)) else s

/-! ### Engine state (R149) -/

/-- Changes the engine state. A credit tick that is due is dropped with it: ticks begin at the first multiple of 25
reached after the entry to ARMED, and stop within the event that leaves it (R173). -/
def State.setEngine (e : Engine) (s : State) : State :=
  { s with mgmt := { s.mgmt with engine := e }, time := { s.time with creditDue := false } }

/-! ### The injected-frame queue and the engine's frames (R111, R142) -/

/-- The injected-frame queue has room (R142). -/
def State.queueHasRoom (s : State) : Bool := s.arbiter.queue.length < Config.queueCapacity

/-- A frame of the part's own, with the engine sequence counter's current value (R111). -/
def State.engineFrame (s : State) (dst : Byte) (kind : BitVec 4) (payload : List Byte) : Sys2Proof.Frame :=
  { dst := dst, src := Config.partAddress, kind := kind, flags := { engine := true }, seq := s.ports.engineSeq,
    payload := payload }

/-- Appends a frame at the tail of the injected-frame queue. -/
def State.appendFrame (f : Sys2Proof.Frame) (o : Origin) (s : State) : State :=
  s.setQueue (s.arbiter.queue ++ [{ frame := f, origin := o }])

/-- Builds an engine ORDER for a route entry and appends it; the sequence counter advances (R111). An absent route entry
has no frame. -/
def State.appendOrder (i : Nat) (v : Half) (o : Origin) (s : State) : State :=
  match s.routeAt i with
  | some r => (s.appendFrame (s.engineFrame r.node Kind.order (orderPayload r.chan v)) o).bumpSeq
  | none => s

/-- Builds an engine POLL for a route entry and appends it; the sequence counter advances (R111). -/
def State.appendPoll (i : Nat) (o : Origin) (s : State) : State :=
  match s.routeAt i with
  | some r => (s.appendFrame (s.engineFrame r.node Kind.poll [r.chan]) o).bumpSeq
  | none => s

end Sys2Proof.Machine
end

