-- ==== Sys2Proof/Machine/Racks.lean ====
section
/-! DEFINITION. Rack records: position, centre and zone membership, the marks a fault leaves, tags, creation, and the
disposition (R3 to R6, R8, R13, R14, R22, R23, R41). -/

namespace Sys2Proof.Machine

/-! ### Position, centre, zone (R5, R13, R14) -/

/-- The travel of a record past the entry eye, before the ceiling (R5). -/
def Rack.travelled (r : Rack) (travel : Travel) : Nat := (travel - r.entryTravel).toNat

/-- The position of a record, held to 65535 (R5). -/
def Rack.position (r : Rack) (travel : Travel) : Nat := min (r.travelled travel) Config.ceiling16

/-- The centre of a record (R13). -/
def Rack.centre (r : Rack) (travel : Travel) : Int :=
  match r.state with
  | .entering => (r.position travel / 2 : Nat)
  | .inLine | .atExit => (r.position travel : Int) - (r.length.getD 0 / 2 : Nat)

/-- A centre lies in a zone: its entry is present, of kind other than NONE, and the centre is in [start, end) (R14). -/
def Tables.inZone (t : Tables) (z : Nat) (centre : Int) : Bool :=
  match (t.zone[z]?).join with
  | some e => e.kind ≠ .none && ((e.start : Int) ≤ centre && centre < (e.stop : Int))
  | none => false

/-- The zone a centre lies in, or none (R14). -/
def Tables.zoneOf (t : Tables) (centre : Int) : Option Nat :=
  (List.range Config.zones).find? fun z => t.inZone z centre

/-- A record is in a zone (R14). -/
def State.rackIn (s : State) (z : Nat) (r : Rack) : Bool := s.tables.inZone z (r.centre s.journal.travel)

/-! ### Creation (R3, R4, R8) -/

/-- A zone's heat or action target is above 0 and its kind is not NONE (R28). -/
def ZoneEntry.treats (z : ZoneEntry) : Bool := z.kind ≠ .none && (0 < z.heatTarget || 0 < z.actTarget)

/-- The credit list of a new record: one entry per treatment zone, in zone order (R4). -/
def Tables.newCredits (t : Tables) : List Credit :=
  (List.range Config.zones).filterMap fun z =>
    match (t.zone[z]?).join with
    | some e => if e.treats then some { zone := z, heat := 0, action := 0, gap := false } else none
    | none => none

/-- A tag belongs to a record of the journal. -/
def tagInUse (racks : List Rack) (t : Tag) : Bool := racks.any fun r => r.tag = t

/-- The first tag from `t` on that no record holds, trying at most `n` further ones (R8). -/
def firstFreeTag (racks : List Rack) : Nat → Tag → Tag
  | 0, t => t
  | n + 1, t => if tagInUse racks t then firstFreeTag racks n (t + 1) else t

/-- A record added at the end of the journal, ENTERING, with the first free tag; next tag advances past it (R8, R10). -/
def State.addRack (s : State) : State :=
  let j := s.journal
  let tag := firstFreeTag j.racks Config.journalCapacity j.nextTag
  s.setJournal
    { j with
      racks := j.racks ++
        [{ tag := tag, entryTravel := j.travel, length := none, state := .entering, merged := false, rerun := false,
           credits := s.tables.newCredits, overlap := none }]
      nextTag := tag + 1 }

/-! ### Marks (R22, R23) -/

/-- Auto-marking: every record whose centre is in the zone and that has no fault overlap receives one (R22). -/
def State.autoMark (cls zone : Nat) (t : Clock) (s : State) : State :=
  s.setJournal { s.journal with
    racks := s.journal.racks.map fun r =>
      if s.rackIn zone r ∧ r.overlap = none then { r with overlap := some { cls := cls, zone := zone, time := t } }
      else r }

/-- The MARK step: every record whose centre is in a zone from za to zb gets the RERUN mark (R23, R104). -/
def State.markRerun (za zb : Nat) (s : State) : State :=
  s.setJournal { s.journal with
    racks := s.journal.racks.map fun r =>
      if (List.range Config.zones).any (fun z => za ≤ z && z ≤ zb && s.rackIn z r) then { r with rerun := true }
      else r }

/-! ### Disposition (R41) -/

/-- The three verdicts (R41). -/
inductive Disposition where
  | accept | rerun | doubt
  deriving DecidableEq, Repr

/-- The codes of RACK_LEFT's subject b (R41). -/
def Disposition.code : Disposition → Nat
  | .accept => 1 | .rerun => 2 | .doubt => 3

/-- Some required credit of the entry is below its zone's target (R41). -/
def Tables.fallsShort (t : Tables) (c : Credit) : Bool :=
  match (t.zone[c.zone]?).join with
  | some z => (0 < z.heatTarget && c.heat < z.heatTarget) || (0 < z.actTarget && c.action < z.actTarget)
  | none => false

/-- The disposition of a record as it is removed, `missed` for a missed exit (R41). -/
def Rack.disposition (r : Rack) (t : Tables) (missed : Bool) : Disposition :=
  if r.merged || missed then .doubt
  else if r.rerun || r.credits.any t.fallsShort then .rerun
  else .accept

/-- Subject c of RACK_LEFT: the flags in the high byte, the overlap's class or 0xFF in the low byte (R19, R167). -/
def Rack.leftFlags (r : Rack) (missed : Bool) : Half :=
  let hi := bit r.merged 0 ||| bit missed 1 ||| bit r.rerun 2 ||| bit (r.credits.any (·.gap)) 3 |||
    bit r.overlap.isSome 4
  half hi (optByte (r.overlap.map (·.cls)))

end Sys2Proof.Machine
end

