-- ==== Sys2Proof/Machine/Credit.lean ====
section
/-! DEFINITION. The credit integrator: the weight of a value under a curve and what one credit tick adds to every record
(R27, R34 to R39), and the tank timing of R43 and R44. -/

namespace Sys2Proof.Machine

/-- The weight from two neighbouring breakpoints, rounded toward zero (R35). -/
def interpolate (p q : Breakpoint) (x : Nat) : Int :=
  (p.w : Int) + (((x : Int) - p.x) * ((q.w : Int) - p.w)).tdiv ((q.x : Int) - p.x)

/-- The weight of `x` along the breakpoints, once `x` is known to lie beyond the first: the segment that holds it, or the
last weight at and beyond the last breakpoint (R34, R35). -/
def weightAlong : List Breakpoint → Nat → Int
  | [], _ => 0
  | [p], _ => p.w
  | p :: q :: rest, x => if x < q.x then interpolate p q x else weightAlong (q :: rest) x

/-- The weight of a value under a curve, held at the end weights outside its breakpoints (R34, R35). -/
def CurveEntry.weight (c : CurveEntry) (x : Nat) : Nat :=
  match c.points.take c.count with
  | [] => 0
  | p :: rest => if x ≤ p.x then p.w else (weightAlong (p :: rest) x).toNat

/-- What one credited channel gives on a tick: the weight of a FRESH value, or nothing when it is not FRESH (R37). A
channel or curve that is absent, which the table check bars, gives nothing. -/
def State.tickWeight (s : State) (ref : Option Nat) (curve : Nat) : Option Nat :=
  match ref with
  | some i =>
    if (s.imageAt i).status = .fresh then (s.curveAt curve).map fun c => c.weight (s.imageAt i).value.toNat else none
  | none => none

/-- A credit grown by what the tick gives, held at 65535 (R37, R39). -/
def addCredit (credit : Nat) (given : Option Nat) : Nat :=
  match given with
  | some w => min Config.ceiling16 (credit + w)
  | none => credit

/-- One credit-list entry on a tick for its zone: heat, then action, and the gap flag when a consulted channel is not
FRESH (R36 to R38). -/
def State.creditEntry (s : State) (z : ZoneEntry) (c : Credit) : Credit :=
  let h := s.tickWeight z.temp z.heatCurve
  let a := s.tickWeight z.press z.actCurve
  { c with
    heat := if 0 < z.heatTarget then addCredit c.heat h else c.heat
    action := if 0 < z.actTarget then addCredit c.action a else c.action
    gap := c.gap || (0 < z.heatTarget && h.isNone) || (0 < z.actTarget && a.isNone) }

/-- One record on a tick: the entry of the zone its centre lies in (R36). -/
def State.creditRack (s : State) (r : Rack) : Rack :=
  match s.tables.zoneOf (r.centre s.journal.travel) with
  | none => r
  | some z =>
    match s.zoneAt z with
    | none => r
    | some e => { r with credits := r.credits.map fun c => if c.zone = z then s.creditEntry e c else c }

/-- A credit tick takes every record from the same state (R27). -/
def State.creditAll (s : State) : State :=
  s.setJournal { s.journal with racks := s.journal.racks.map s.creditRack }

/-! ### Tank timing (R43, R44) -/

/-- A computed drain or refill timeout, in seconds (R43, R44). -/
def tankSeconds (volume rate offset : Nat) : Nat := volume * rate + 10 * offset

/-- The deadline of a tank wait that begins now: from the rate when it is not 0, else from the step's own timeout field
in 100 ms units, where 0 is no limit (R43, R44, R102, R103). -/
def tankDeadline (clock : Clock) (volume rate offset timeout : Nat) : Option Clock :=
  if rate ≠ 0 then some (clock + seconds (tankSeconds volume rate offset))
  else if timeout = 0 then none
  else some (clock + tenths timeout)

end Sys2Proof.Machine
end

