-- ==== Sys2Proof/Machine/Flags.lean ====
section
/-! DEFINITION. The flags: the four flags of every frame the part sends upstream (R115), the sending of a reply, and the
five sticky flags of STATUS (R171). -/

namespace Sys2Proof.Machine

/-! ### Upstream flags (R115) -/

/-- ATTN: the notice queue holds at least one notice (R115). -/
def State.attn (s : State) : Bool := !s.notices.isEmpty

/-- A reply is sent on the C-port as soon as it is made (R114). Its ATTN flag is that of this moment (R115, log entry
8); the transaction stays open until its last character has gone. -/
def State.reply (f : Sys2Proof.Frame) (s : State) : State :=
  s.setCPort (.replying { f with flags := { f.flags with attn := s.attn } })

/-- A node's reply forwarded upstream: the node's kind, SEQ and payload, flags as R115 states (R111). -/
def forwardedReply (r : Sys2Proof.Frame) (rewritten : Bool) : Sys2Proof.Frame :=
  { dst := Config.controllerAddress, src := r.src, kind := r.kind, flags := { rewritten := rewritten }, seq := r.seq,
    payload := r.payload }

/-- A reply the part makes for a node's channel to the controller frame `req` (R111). -/
def madeReply (req : Sys2Proof.Frame) (kind : BitVec 4) (fl : FrameFlags) (payload : List Byte) : Sys2Proof.Frame :=
  { dst := Config.controllerAddress, src := req.dst, kind := kind, flags := fl, seq := req.seq, payload := payload }

/-- An ACK the gate makes: status HELD, LOCKED or PROTECTED, REWRITTEN, IMAGE and ENGINE clear (R115, R132). -/
def gateAck (req : Sys2Proof.Frame) (status : Byte) (applied : Half) : Sys2Proof.Frame :=
  madeReply req Kind.ack {} (ackPayload req.chan status applied)

/-- A READING served from the image, with the IMAGE flag (R115, R135). -/
def imageReading (req : Sys2Proof.Frame) (value : Half) (status : Byte) : Sys2Proof.Frame :=
  madeReply req Kind.reading { image := true } (readingPayload req.chan value status)

/-- The ACK of status NO_REPLY made for a missing node, with the ENGINE flag (R115, R124). -/
def noReplyAck (req : Sys2Proof.Frame) (applied : Half) : Sys2Proof.Frame :=
  madeReply req Kind.ack { engine := true } (ackPayload req.chan AckStatus.noReply applied)

/-- The READING of status NO_REPLY made for a missing node, with the ENGINE flag (R115, R124). -/
def noReplyReading (req : Sys2Proof.Frame) : Sys2Proof.Frame :=
  madeReply req Kind.reading { engine := true } (readingPayload req.chan 0 ReadingStatus.noReply)

/-- A MGMT_REPLY: SRC 62, the request's SEQ, the code echo, the result and the data; it carries ATTN alone (R111,
R152). -/
def mgmtReply (seq code : Byte) (r : Result) (data : List Byte) : Sys2Proof.Frame :=
  { dst := Config.controllerAddress, src := Config.partAddress, kind := Kind.mgmtReply, seq := seq,
    payload := code :: byte r.code :: data }

/-- A MGMT_REPLY other than STATUS's is made: it writes its result into the last result (R152). -/
def State.mgmtAnswer (seq code : Byte) (r : Result) (data : List Byte) (s : State) : State :=
  (s.setResult r).reply (mgmtReply seq code r data)

/-! ### Sticky flags (R171) -/

/-- OVERRUN is set (R112). -/
def State.setOverrun (s : State) : State := s.setSticky { s.ports.sticky with overrun := true }
/-- BAD_C is set (R110). -/
def State.setBadC (s : State) : State := s.setSticky { s.ports.sticky with badC := true }
/-- BAD_N is set (R110). -/
def State.setBadN (s : State) : State := s.setSticky { s.ports.sticky with badN := true }
/-- STRAY is set (R121). -/
def State.setStray (s : State) : State := s.setSticky { s.ports.sticky with stray := true }
/-- BAD_PHASE is set (R125). -/
def State.setBadPhase (s : State) : State := s.setSticky { s.ports.sticky with badPhase := true }

/-- Byte 13 of STATUS: bit 0 OVERRUN, 1 BAD_C, 2 BAD_N, 3 STRAY, 4 BAD_PHASE (R164). Bits 7 to 5, which the manual gives no
field, are sent as 0 (DESIGN CHOICE, log entry 28). -/
def Sticky.toByte (f : Sticky) : Byte :=
  bit f.overrun 0 ||| bit f.badC 1 ||| bit f.badN 2 ||| bit f.stray 3 ||| bit f.badPhase 4

end Sys2Proof.Machine
end

