-- ==== Sys2Proof/Machine/Gate.lean ====
section
/-! DEFINITION. The order gate: the values it lets through, held slots, replays and hand-backs, the room list, ownership,
the fate of controller ORDERs and POLLs, and what becomes of a waiting controller frame (R128 to R139, R143, R144). -/

namespace Sys2Proof.Machine

/-! ### The cap in force and lockout (R89) -/

/-- The smallest cap held by any level, absent when none holds one (R89). -/
def minCap : List Level → Option Nat
  | [] => none
  | l :: ls =>
    match l.cap, minCap ls with
    | none, r => r
    | some c, none => some c
    | some c, some d => some (min c d)

/-- The cap in force (R89). -/
def State.capInForce (s : State) : Option Nat := minCap s.levels

/-- Lockout is held when any level holds its lockout (R89). -/
def State.lockoutHeld (s : State) : Bool := s.levels.any (·.lockout)

/-! ### Values: heater inhibit and clamp (R130 steps 4 and 5) -/

/-- Step 4: under containment a heater order above 0 becomes 0 (R130). -/
def State.inhibited (s : State) (r : RouteEntry) (v : Half) : Half :=
  if r.kind = .heater ∧ s.contain.engaged = true ∧ v ≠ 0 then 0 else v

/-- A value brought within the route entry's clamp (R130). -/
def clampTo (r : RouteEntry) (v : Half) : Half :=
  if v.toNat < r.clampMin then word r.clampMin else if r.clampMax < v.toNat then word r.clampMax else v

/-- A value lowered to the cap, where one is in force (R130). -/
def capTo (cap : Option Nat) (v : Half) : Half :=
  match cap with
  | some c => if c < v.toNat then word c else v
  | none => v

/-- Step 5: the clamp, then for the conveyor speed channel the cap in force (R130). -/
def State.clamped (s : State) (i : Nat) (r : RouteEntry) (v : Half) : Half :=
  if s.conveyorRef = some i then capTo s.capInForce (clampTo r v) else clampTo r v

/-- The route entry's protection group is in the controller mask (R129, R130). -/
def State.ctlProtected (s : State) (r : RouteEntry) : Bool := s.gate.ctlMask.getLsbD r.group

/-- The channel's protection group is in the plan mask (R98, R129). -/
def State.planProtected (s : State) (i : Nat) : Bool :=
  match s.routeAt i with
  | some r => s.gate.planMask.getLsbD r.group
  | none => false

/-! ### Replays and the room list (R137, R143) -/

/-- The gate decides a replay as it appends it: dropped when the channel's group is in the controller mask, else steps 4
and 5 as they stand (R137). A slot that is no longer REPLAY_DUE has no replay. -/
def State.decideReplay (i : Nat) (s : State) : State :=
  match (s.gateAt i).held, s.routeAt i with
  | .replayDue v, some r =>
    if s.ctlProtected r then s.modGate i fun c => { c with held := .empty }
    else s.appendOrder i (s.clamped i r (s.inhibited r v)) (.replay i)
  | _, _ => s

/-- A hand-back order is appended and the hand-back value becomes absent (R139). -/
def State.appendHandBack (i : Nat) (s : State) : State :=
  match (s.gateAt i).handBack with
  | some v => (s.appendOrder i v (.handBack i)).modGate i fun c => { c with handBack := none }
  | none => s

/-- A plan order that waited for room has been appended: its level now awaits the ACK (R97, R108). -/
def State.roomBecomesAck (depth : Nat) (s : State) : State :=
  s.setLevels (s.levels.modify depth fun l => if l.wait = .queueRoom then { l with wait := .ack } else l)

/-- The frame of a room-list entry is appended (R143). -/
def State.appendRoomEntry (e : RoomEntry) (s : State) : State :=
  match e with
  | .plan d st i v => (s.appendOrder i v (.plan d st i)).roomBecomesAck d
  | .replay i => s.decideReplay i
  | .handBack i => s.appendHandBack i

/-- The room list fills the places of the queue, the first to wait first; what finds no place waits on (R143). -/
def fillFrom : List RoomEntry → State → State
  | [], s => s.setRoom []
  | e :: es, s => if s.queueHasRoom then fillFrom es (s.appendRoomEntry e) else s.setRoom (e :: es)

/-- Each place in the queue is filled from the room list in the same event (R143). -/
def State.fillRoom (s : State) : State := fillFrom s.arbiter.room s

/-- Frames leave the injected-frame queue unsent, the others keep their order, and the room list fills the places
(R144). -/
def State.removeQueued (p : QFrame → Bool) (s : State) : State :=
  (s.setQueue (s.arbiter.queue.filter fun q => !p q)).fillRoom

/-- Entries leave the room list without being appended (R143). -/
def State.removeRoom (p : RoomEntry → Bool) (s : State) : State := s.setRoom (s.arbiter.room.filter fun e => !p e)

/-! ### Ownership (R128) -/

/-- A waiting hand-back is dropped and its value becomes absent, and one still queued is removed (R139). -/
def State.dropHandBack (i : Nat) (s : State) : State :=
  (((s.modGate i fun c => { c with handBack := none }).removeRoom fun e => e = .handBack i).removeQueued
    fun q => q.origin = .handBack i)

/-- The channel's owner changes, which drops its hand-back (R139); an owner that stays the same changes nothing. -/
def State.setOwner (i : Nat) (o : Owner) (s : State) : State :=
  if (s.gateAt i).owner = o then s else (s.modGate i fun c => { c with owner := o }).dropHandBack i

/-- The gate prepares the replay of a channel: appended at once when the queue has room, else it waits (R137). -/
def State.prepareReplay (i : Nat) (s : State) : State :=
  if s.queueHasRoom then s.decideReplay i else s.setRoom (s.arbiter.room ++ [.replay i])

/-- The channel returns to CONTROLLER: a held order becomes due for replay, an empty slot gets none (R137). -/
def State.toController (i : Nat) (s : State) : State :=
  let s1 := s.setOwner i .controller
  match (s1.gateAt i).held with
  | .held v => (s1.modGate i fun c => { c with held := .replayDue v }).prepareReplay i
  | _ => s1

/-- The channel is handed to a suspended level: that level's touched value becomes the hand-back value and its ORDER is
appended, or waits for room (R105, R139). -/
def State.handBackTo (i depth : Nat) (v : Half) (s : State) : State :=
  let s1 := (s.setOwner i (.level depth)).modGate i fun c => { c with handBack := some v }
  if s1.queueHasRoom then s1.appendHandBack i else s1.setRoom (s1.arbiter.room ++ [.handBack i])

/-! ### Held orders and the gate's replies (R132, R136, R138) -/

/-- A gated order's value is placed in the held slot, replacing what it held (R136). -/
def State.holdOrder (i : Nat) (v : Half) (s : State) : State := s.modGate i fun c => { c with held := .held v }

/-- The gate answers a gated order with an ACK of the given status and the applied value as it stands (R132). -/
def State.answerGate (i : Nat) (req : Sys2Proof.Frame) (status : Byte) (s : State) : State :=
  s.reply (gateAck req status (s.imageAt i).applied)

/-- The READING that answers a routed POLL from the image (R135). -/
def State.imageReply (s : State) (i : Nat) (req : Sys2Proof.Frame) : Sys2Proof.Frame :=
  let c := s.imageAt i
  if s.isSensor i then
    match c.status with
    | .fresh => imageReading req c.value ReadingStatus.ok
    | .stale => imageReading req c.value ReadingStatus.bad
    | .bad => imageReading req c.value ReadingStatus.bad
    | .never => imageReading req 0 ReadingStatus.noReply
  else imageReading req c.applied ReadingStatus.ok

/-- The end of a replay: a slot that is still REPLAY_DUE becomes EMPTY (R138). -/
def State.replayEnded (i : Nat) (s : State) : State :=
  match (s.gateAt i).held with
  | .replayDue _ => s.modGate i fun c => { c with held := .empty }
  | _ => s

/-- A replay of the channel waits for room or stands in the queue (R138). -/
def State.replayWaits (s : State) (i : Nat) : Bool :=
  s.arbiter.queue.any (fun q => q.origin = .replay i) || s.arbiter.room.any (fun e => e = .replay i)

/-- A replay of the channel that waits for room or stands in the queue is removed, whatever its slot holds: a ROUTE commit
or the end of an earlier replay may have emptied the slot meanwhile (R138, R144). -/
def State.dropReplay (i : Nat) (s : State) : State :=
  if s.replayWaits i then (s.removeRoom fun e => e = .replay i).removeQueued fun q => q.origin = .replay i else s

/-- A gated order let through: a REPLAY_DUE slot becomes EMPTY, and the replay waiting for room or queued is dropped (R138,
R144). -/
def State.supersedeReplay (i : Nat) (s : State) : State := (s.replayEnded i).dropReplay i

/-- A slot whose replay is taken back returns to HELD; one that is not REPLAY_DUE stays as it is, having no value of its
replay to take back (R138; DESIGN CHOICE, log entry 30). -/
def State.replayTakenBack (i : Nat) (s : State) : State :=
  match (s.gateAt i).held with
  | .replayDue v => s.modGate i fun c => { c with held := .held v }
  | _ => s

/-- A plan order takes the channel: a replay not yet on the line is removed and its slot returns to HELD; one on the line
leaves the slot REPLAY_DUE (R138, R144). -/
def State.recallReplay (i : Nat) (s : State) : State :=
  if s.replayWaits i then (s.replayTakenBack i).dropReplay i else s

/-- A plan order takes the channel of the waiting gated order: it is withdrawn, held with the value the cycle controller
sent, and answered HELD (R134). -/
def State.withdrawForPlan (i : Nat) (s : State) : State :=
  match s.arbiter.waiting with
  | some { req := req, kind := .order j _ } =>
    if j = i then ((s.setWaiting none).holdOrder i req.orderValue).answerGate i req AckStatus.held else s
  | _ => s

/-- Lockout becomes held while a controller frame waits: a gated order is answered LOCKED, a routed POLL from the image,
a converted POLL PROTECTED; a transparent frame waits on (R134). -/
def State.withdrawForLockout (s : State) : State :=
  match s.arbiter.waiting with
  | some { req := req, kind := .order i _ } => (s.setWaiting none).answerGate i req AckStatus.locked
  | some { req := req, kind := .poll i } => (s.setWaiting none).reply (s.imageReply i req)
  | some { req := req, kind := .protectedPoll i _ } => (s.setWaiting none).answerGate i req AckStatus.protectedStatus
  | _ => s

/-- A plan order takes a channel: ownership, a replay not yet sent, and the waiting gated order (R97, R134, R138). -/
def State.takeChannel (i depth : Nat) (s : State) : State :=
  ((s.setOwner i (.level depth)).recallReplay i).withdrawForPlan i

/-! ### The fate of a controller ORDER or POLL (R130, R131, R135) -/

/-- A gated order becomes the controller frame waiting for the N-side (R130, R138). -/
def State.letThrough (i : Nat) (req : Sys2Proof.Frame) (v : Half) (s : State) : State :=
  (s.supersedeReplay i).setWaiting (some { req := req, kind := .order i v })

/-- Step 1: the order is converted to a POLL of the channel, or under lockout answered PROTECTED at once (R131). -/
def State.convertProtected (i : Nat) (r : RouteEntry) (req : Sys2Proof.Frame) (s : State) : State :=
  if s.lockoutHeld then s.answerGate i req AckStatus.protectedStatus
  else
    (s.setWaiting (some { req := req, kind := .protectedPoll i (s.engineFrame r.node Kind.poll [req.chan]) })).bumpSeq

/-- The gate decides a gated order: the five steps in ARMED and WATCH, step 4 alone in CONFIG and CHECKING (R130). -/
def State.decideOrder (i : Nat) (r : RouteEntry) (req : Sys2Proof.Frame) (s : State) : State :=
  let v := req.orderValue
  if s.engine = .armed ∨ s.engine = .watch then
    if s.ctlProtected r then s.convertProtected i r req
    else if s.lockoutHeld then s.answerGate i req AckStatus.locked
    else if (s.gateAt i).owner ≠ .controller then (s.holdOrder i v).answerGate i req AckStatus.held
    else s.letThrough i req (s.clamped i r (s.inhibited r v))
  else s.letThrough i req (s.inhibited r v)

/-- A routed POLL is let through unchanged, or under lockout answered from the image (R135). -/
def State.decidePoll (i : Nat) (req : Sys2Proof.Frame) (s : State) : State :=
  if s.lockoutHeld then s.reply (s.imageReply i req)
  else s.setWaiting (some { req := req, kind := .poll i })

end Sys2Proof.Machine
end

