-- ==== Sys2Proof/Machine/Executor.lean ====
section
/-! DEFINITION. The plan executor: eligibility, start, pre-emption and resume of levels, the sixteen step kinds, plan
orders and their ends, and how a level ends (R88 to R109). One micro-step of the executor is `microStep`; `runTask` takes
them one after another within the event that began the first (R95). -/

namespace Sys2Proof.Machine

/-! ### The running level -/

/-- The running level: the one of greatest depth (R88). -/
def State.running (s : State) : Option Level := s.levels.getLast?

/-- The depth of the running level, 0 while none exists (R88). -/
def State.topDepth (s : State) : Nat := s.levels.length - 1

/-- Updates the running level. -/
def State.modTop (f : Level → Level) (s : State) : State := s.setLevels (s.levels.modify s.topDepth f)

/-- The step slot the running level stands at. -/
def State.runningSlot (s : State) (l : Level) : Option PlanSlot := s.planSlot l.plan l.step

/-! ### The touched set (R88) -/

/-- Records the value last ordered for a channel, replacing any earlier one (R88, R97). The rules give the set no order, which
LEVEL_READ shows: the model keeps it in ascending route index (DESIGN CHOICE, log entry 32). -/
def touch (i : Nat) (v : Half) : List (Nat × Half) → List (Nat × Half)
  | [] => [(i, v)]
  | (j, w) :: rest =>
    if i < j then (i, v) :: (j, w) :: rest else if i = j then (i, v) :: rest else (j, w) :: touch i v rest

/-- Removes a channel from a touched set (R99). -/
def untouch (i : Nat) (t : List (Nat × Half)) : List (Nat × Half) := t.filter fun e => e.1 ≠ i

/-- The value a touched set lists for a channel. -/
def touchedValue (i : Nat) (t : List (Nat × Half)) : Option Half := (t.find? fun e => e.1 = i).map (·.2)

/-- The nearest level below `depth` whose touched set lists the channel, with its value (R99, R105). -/
def nearestTouch (levels : List Level) (i : Nat) : Nat → Option (Nat × Half)
  | 0 => none
  | d + 1 =>
    match (levels[d]?).bind fun l => touchedValue i l.touched with
    | some v => some (d, v)
    | none => nearestTouch levels i d

/-! ### Waits -/

/-- The running level's step waits, from this event on. -/
def State.waitFor (k : WaitKind) (phase : Nat) (deadline : Option Clock) (s : State) : State :=
  s.modTop fun l => { l with wait := k, tankPhase := phase, deadline := deadline, justBegun := true }

/-! ### Plan orders (R97) -/

/-- A plan order of the running level's step: ownership and touched set, the ORDER appended or waiting in the level, and
the step's wait for its end (R97). -/
def State.placeOrder (i : Nat) (v : Half) (phase : Nat) (s : State) : State :=
  match s.running with
  | none => s
  | some l =>
    let d := s.topDepth
    let s1 := (s.takeChannel i d).modTop fun l => { l with touched := touch i v l.touched }
    if s1.queueHasRoom then (s1.appendOrder i v (.plan d l.step i)).waitFor .ack phase none
    else (s1.setRoom (s1.arbiter.room ++ [.plan d l.step i v])).waitFor .queueRoom phase none

/-! ### Giving a channel up (R99, R105) -/

/-- A channel that the level at `depth` owns passes on: to the nearest suspended level that lists it, its value re-sent,
else to CONTROLLER with any held order replayed (R99, R105). -/
def State.passOn (i depth : Nat) (s : State) : State :=
  match nearestTouch s.levels i depth with
  | some (d, v) => s.handBackTo i d v
  | none => s.toController i

/-- RELEASE of one channel by the running level (R99). -/
def State.releaseChannel (i : Nat) (s : State) : State :=
  let d := s.topDepth
  let s1 := s.modTop fun l => { l with touched := untouch i l.touched }
  if (s.gateAt i).owner = .level d then s1.passOn i d else s1

/-- The channels whose owner is the level at a depth, in ascending route index (R105). -/
def State.ownedBy (s : State) (o : Owner) : List Nat :=
  (List.range Config.routes).filter fun i => (s.gateAt i).owner = o

/-! ### The end of a level (R105, R106) -/

/-- What the executor has still to do within the event. -/
inductive Task where
  /-- evaluate (R90) -/
  | evaluate
  /-- a level has ended and been removed: start, resume or idle (R93) -/
  | afterEnd
  /-- the running level's current step begins (R95) -/
  | startStep
  deriving DecidableEq, Repr

/-- A transaction on the line that belongs to the level at a depth is left to the image alone (R92, R109, R123). -/
def State.orphanTrans (depth : Nat) (s : State) : State :=
  match s.ports.trans with
  | some t =>
    match t.origin with
    | .plan d _ i => if d = depth then s.setTrans (some { t with origin := .planOrphan i }) else s
    | _ => s
  | none => s

/-- Steps 2 to 5 of R105: cap and lockout go, the latch settles, PLAN_ENDED, and the level is removed. -/
def State.finishLevel (l : Level) (ok : Bool) (at_ : Nat) (s : State) : State :=
  let s1 := s.modTop fun l => { l with cap := none, lockout := false }
  let s2 := s1.setLatch l.cls { s1.latchAt l.cls with
    state := if ok then .resolved else .failed, ending := some (if ok then .ok else .fail) }
  let s3 := s2.notify .planEnded (word l.cls) (word (if ok then Ending.ok.code else Ending.fail.code)) (word at_)
  (s3.orphanTrans s3.topDepth).setLevels s3.levels.dropLast

/-- The running level ends with END_OK: its channels are handed back in ascending route index, then R105's other steps.
`at_` is the ending step index, 12 past step 11. -/
def State.endOk (at_ : Nat) (s : State) : Option Task × State :=
  match s.running with
  | none => (none, s)
  | some l =>
    let d := s.topDepth
    let s1 := (s.ownedBy (.level d)).foldl (fun s i => s.passOn i d) s
    (some .afterEnd, s1.finishLevel l true at_)

/-- The running level ends with END_FAIL: its channels become RETAINED (R106). -/
def State.endFail (s : State) : Option Task × State :=
  match s.running with
  | none => (none, s)
  | some l =>
    let d := s.topDepth
    let s1 := (s.ownedBy (.level d)).foldl (fun s i => s.setOwner i .retained) s
    (some .afterEnd, s1.finishLevel l false l.step)

/-! ### Moving between steps (R95, R96) -/

/-- The running level's step completes: the level advances, and past step 11 it ends as END_OK does (R95). -/
def State.advance (s : State) : Option Task × State :=
  match s.running with
  | none => (none, s)
  | some l =>
    let s1 := s.waitFor .none 0 none
    if l.step + 1 < Config.steps then (some .startStep, s1.modTop fun l => { l with step := l.step + 1 })
    else s1.endOk Config.steps

/-- The level moves to a fail target, or ends as END_FAIL does when it is FAIL (R96, R104). -/
def State.moveToFail (target : Option Nat) (s : State) : Option Task × State :=
  let s1 := s.waitFor .none 0 none
  match target with
  | some t => (some .startStep, s1.modTop fun l => { l with step := t })
  | none => s1.endFail

/-- The reasons of STEP_FAILED (R96). -/
inductive FailReason where
  | protectedGroup | inhibited | refused | noReply | timeout | badStep
  deriving DecidableEq, Repr

/-- The codes of the reasons (R96). -/
def FailReason.code : FailReason → Nat
  | .protectedGroup => 1 | .inhibited => 2 | .refused => 3 | .noReply => 4 | .timeout => 5 | .badStep => 6

/-- STEP_FAILED for the running level's step (R96). -/
def State.notifyFailed (l : Level) (r : FailReason) (s : State) : State :=
  s.notify .stepFailed (word l.cls) (word l.step) (word r.code)

/-- The running level's step fails and the level moves to its fail target (R96). -/
def State.failStep (l : Level) (sl : PlanSlot) (r : FailReason) (s : State) : Option Task × State :=
  (s.notifyFailed l r).moveToFail sl.failTarget

/-! ### DRAIN and REFILL (R102, R103) -/

/-- What a tank step works with: the heater, the valve it shuts first, the valve it opens, the level channel, the level
that ends the wait, and the timing figures. -/
structure TankWork where
  heater : Option Nat
  other  : Option Nat
  valve  : Option Nat
  level  : Option Nat
  target : Nat
  rate   : Nat
  offset : Nat
  volume : Nat
  deriving DecidableEq, Repr

/-- DRAIN shuts the inlet and opens the drain; REFILL shuts the drain and opens the inlet (R102, R103). -/
def ZoneEntry.tankWork (z : ZoneEntry) (refill : Bool) : TankWork :=
  if refill then
    { heater := z.heater, other := z.drain, valve := z.inlet, level := z.level, target := z.operLevel,
      rate := z.refillRate, offset := z.refillOffset, volume := z.volume }
  else
    { heater := z.heater, other := z.inlet, valve := z.drain, level := z.level, target := z.emptyLevel,
      rate := z.drainRate, offset := z.drainOffset, volume := z.volume }

/-- The tank work of a step slot, for the zone its subject names. -/
def State.tankWork (s : State) (sl : PlanSlot) : Option TankWork :=
  (s.zoneAt sl.subject.toNat).map fun z => z.tankWork (sl.kind = .refill)

/-- Phase 3: the valve is opened. A valve of none, which the table check bars, leaves the step waiting for nothing. -/
def State.tankOpen (w : TankWork) (s : State) : State :=
  match w.valve with
  | some i => s.placeOrder i 100 3
  | none => s.waitFor .none 3 none

/-- Phase 2: the other valve is shut; a ref of none is left out (R102, R103). -/
def State.tankOther (w : TankWork) (s : State) : State :=
  match w.other with
  | some i => s.placeOrder i 0 2
  | none => s.tankOpen w

/-- Phase 1: the heater is put off; a ref of none is left out (R102, R103). -/
def State.tankStart (w : TankWork) (s : State) : State :=
  match w.heater with
  | some i => s.placeOrder i 0 1
  | none => s.tankOther w

/-- Phase 4: the wait for the level, with the computed or the step's own timeout (R43, R44, R102, R103). -/
def State.tankWait (w : TankWork) (sl : PlanSlot) (s : State) : State :=
  s.waitFor .reading 4 (tankDeadline s.now w.volume w.rate w.offset sl.timeout.toNat)

/-- Phase 5: the valve is shut (R102, R103). -/
def State.tankShut (w : TankWork) (s : State) : State :=
  match w.valve with
  | some i => s.placeOrder i 0 5
  | none => s.waitFor .none 5 none

/-- Some channel the tank step would order is in a group of the plan mask (R102, R103). -/
def State.tankProtected (s : State) (w : TankWork) : Bool :=
  (w.heater.toList ++ w.other.toList ++ w.valve.toList).any s.planProtected

/-! ### Steps begin (R95, R98 to R104) -/

/-- A present signature of the class has last outcome MATCH (R82, R104). -/
def State.classMatches (s : State) (p : Nat → Bool) : Bool :=
  (List.range Config.signatures).any fun g =>
    match s.sigAt g with
    | some e => p e.cls && (s.runAt g).last = .hit
    | none => false

/-- SET (R98). The rule gives PROTECTED and INHIBITED no order: a SET that meets both fails with PROTECTED (DESIGN CHOICE,
log entry 26). -/
def State.beginSet (l : Level) (sl : PlanSlot) (s : State) : Option Task × State :=
  let i := sl.subject.toNat
  if s.planProtected i then s.failStep l sl .protectedGroup
  else if s.hasKind i .heater ∧ sl.value ≠ 0 ∧ s.contain.engaged = true then s.failStep l sl .inhibited
  else (none, s.placeOrder i sl.value 0)

/-- HOLD_LINE and RUN_LINE order the conveyor speed channel (R100). Without one, which the table check bars, the step
waits for nothing. -/
def State.orderLine (v : Half) (s : State) : State :=
  match s.conveyorRef with
  | some i => s.placeOrder i v 0
  | none => s.waitFor .none 0 none

/-- RELEASE_LINE removes the level's cap and gives up the conveyor speed channel; the replay it makes due is decided
without that cap (R99, section 7.11). -/
def State.releaseLine (s : State) : State :=
  let s1 := s.modTop fun l => { l with cap := none }
  match s.conveyorRef with
  | some i => s1.releaseChannel i
  | none => s1

/-- LOCKOUT on: the level holds its lockout; when no level held one before, lockout becomes held (R104, R134). -/
def State.lockoutOn (s : State) : State :=
  let s1 := s.modTop fun l => { l with lockout := true }
  if s.lockoutHeld then s1 else s1.withdrawForLockout

/-- DRAIN and REFILL begin (R102, R103). -/
def State.beginTank (l : Level) (sl : PlanSlot) (s : State) : Option Task × State :=
  match s.tankWork sl with
  | some w => if s.tankProtected w then s.failStep l sl .protectedGroup else (none, s.tankStart w)
  | none => (none, s.waitFor .none 0 none)

/-- WAIT_FOR begins: its deadline is the line clock plus timeout × 10, none when the timeout is 0 (R101). -/
def State.beginWaitFor (sl : PlanSlot) (s : State) : State :=
  s.waitFor .reading 0 (if sl.timeout = 0 then none else some (s.now + tenths sl.timeout.toNat))

/-- WAIT_TIME begins; a timeout of 0 completes it at once (R101). -/
def State.beginWaitTime (sl : PlanSlot) (s : State) : Option Task × State :=
  if sl.timeout = 0 then s.advance else (none, s.waitFor .time 0 (some (s.now + tenths sl.timeout.toNat)))

/-- A step slot that is present begins (R95, R98 to R104). -/
def State.beginSlot (l : Level) (sl : PlanSlot) (s : State) : Option Task × State :=
  match sl.kind with
  | .holdLine => (none, s.orderLine 0)
  | .runLine => (none, s.orderLine sl.value)
  | .capLine => (s.modTop fun l => { l with cap := some sl.value.toNat }).advance
  | .releaseLine => s.releaseLine.advance
  | .set => s.beginSet l sl
  | .release => (s.releaseChannel sl.subject.toNat).advance
  | .waitFor => (none, s.beginWaitFor sl)
  | .waitTime => s.beginWaitTime sl
  | .drain => s.beginTank l sl
  | .refill => s.beginTank l sl
  | .mark => (s.markRerun sl.subject.toNat sl.value.toNat).advance
  | .lockout =>
    if sl.value = 0 then (s.modTop fun l => { l with lockout := false }).advance else s.lockoutOn.advance
  | .notify => (s.notify .planNote (word l.cls) (half 0 sl.subject) sl.value).advance
  | .check => if s.classMatches (· = l.cls) then s.moveToFail sl.failTarget else s.advance
  | .endOk => s.endOk l.step
  | .endFail => s.endFail

/-- The running level's current step begins; an absent slot fails with BAD_STEP and ends the level (R95). -/
def State.beginStep (s : State) : Option Task × State :=
  match s.running with
  | none => (none, s)
  | some l =>
    match s.runningSlot l with
    | none => ((s.notifyFailed l .badStep).waitFor .none 0 none).endFail
    | some sl => s.beginSlot l sl

/-! ### Eligibility, start, pre-emption, resume (R90 to R94) -/

/-- A latch is eligible while it is PENDING and its class is enabled (R90). -/
def State.eligible (s : State) (c : Nat) : Bool := (s.latchAt c).state = .pending && (s.classAt c).enable

/-- The eligible latch of highest priority, 0 the highest (R90). -/
def State.firstEligible (s : State) : Option Nat := (List.range Config.classes).find? s.eligible

/-- A latch that meets a NONE cell fails with NO_PLAN (R91). -/
def State.failNoPlan (c : Nat) (s : State) : State :=
  (s.setLatch c { s.latchAt c with state := .failed, ending := some .noPlan }).notify
    .planEnded (word c) (word Ending.noPlan.code) noneHalf

/-- A level is pushed for a class and a plan, its latch becomes RECOVERING and PLAN_STARTED is queued (R91). -/
def State.pushLevel (c plan : Nat) (s : State) : State :=
  ((s.setLevels (s.levels ++
    [{ cls := c, plan := plan, step := 0, wait := .none, tankPhase := 0, deadline := none, touched := [], cap := none,
       lockout := false, justBegun := true }])).setLatch c { s.latchAt c with state := .recovering }).notify
    .planStarted (word c) (word plan) (word s.levels.length)

/-- Starts a plan for an eligible latch: NONE fails it and the executor looks again, a plan index pushes a level whose
step 0 then begins (R91). -/
def State.startPlan (c : Nat) (again : Task) (s : State) : Option Task × State :=
  match s.selectCell c s.ports.phase with
  | none => (some again, s.failNoPlan c)
  | some p => (some .startStep, s.pushLevel c p)

/-- A queued frame is a plan order of the level at a depth. -/
def isPlanFrame (depth : Nat) (q : QFrame) : Bool :=
  match q.origin with
  | .plan d _ _ => d = depth
  | _ => false

/-- A room-list entry is a plan order of the level at a depth. -/
def isPlanRoom (depth : Nat) (e : RoomEntry) : Bool :=
  match e with
  | .plan d _ _ _ => d = depth
  | _ => false

/-- The running level is suspended for a class that pre-empts it (R92). -/
def State.suspend (l : Level) (c : Nat) (s : State) : State :=
  let d := s.topDepth
  let s1 := s.modTop fun l => { l with wait := .none, tankPhase := 0, deadline := none }
  let s2 := (s1.removeRoom (isPlanRoom d)).removeQueued (isPlanFrame d)
  (s2.orphanTrans d).notify .planSuspended (word l.cls) (word l.step) (word c)

/-- Pre-emption: a NONE cell fails the waiting latch and leaves the running level; a plan suspends it first (R92). -/
def State.preempt (l : Level) (c : Nat) (s : State) : Option Task × State :=
  match s.selectCell c s.ports.phase with
  | none => s.startPlan c .evaluate
  | some _ => (s.suspend l c).startPlan c .evaluate

/-- An evaluation in ARMED (R90). -/
def State.evaluate (s : State) : Option Task × State :=
  if s.engine ≠ .armed then (none, s)
  else
    match s.firstEligible with
    | none => (none, s)
    | some c =>
      match s.running with
      | none => s.startPlan c .evaluate
      | some l =>
        if c < l.cls ∧ s.levels.length < Config.maxLevels then s.preempt l c else (none, s)

/-- The highest suspended level resumes: its step begins again from its beginning (R94). -/
def State.resume (l : Level) (s : State) : Option Task × State :=
  (some .startStep, s.notify .planResumed (word l.cls) (word l.step) noneHalf)

/-- After a level's end: start an eligible latch that outranks every suspended level, else resume, else idle (R93). -/
def State.afterEnd (s : State) : Option Task × State :=
  match s.running, s.firstEligible with
  | none, none => (none, s)
  | none, some c => s.startPlan c .afterEnd
  | some l, none => s.resume l
  | some l, some c => if c < l.cls then s.startPlan c .afterEnd else s.resume l

/-- One micro-step of the executor. -/
def microStep (t : Task) (s : State) : Option Task × State :=
  match t with
  | .evaluate => s.evaluate
  | .afterEnd => s.afterEnd
  | .startStep => s.beginStep

/-- The executor takes its micro-steps one after another within the event (R95), at most `fuel` of them. -/
def runTasks : Nat → Option Task → State → State
  | 0, _, s => s
  | _ + 1, none, s => s
  | n + 1, some t, s => runTasks n (microStep t s).1 (microStep t s).2

/-- A bound on the micro-steps one event can take with checked tables: at most 15 levels run (12 latches and 3 levels),
each of at most 12 steps and one end, and at most 12 latches fail with NO_PLAN (log entry 9). -/
def executorFuel : Nat := 256

/-- The executor carries out a task and all that follows from it at once. -/
def State.runTask (r : Option Task × State) : State := runTasks executorFuel r.1 r.2

/-- The executor evaluates (R90). -/
def State.runEvaluate (s : State) : State := State.runTask (some .evaluate, s)

/-! ### Events that reach a waiting step (R97, R100 to R103) -/

/-- How a plan order's transaction ended (R97). -/
inductive OrderEnd where
  | done | refused | noReply
  deriving DecidableEq, Repr

/-- The reason with which an order failure fails a step (R96). -/
def OrderEnd.reason : OrderEnd → FailReason
  | .done => .refused
  | .refused => .refused
  | .noReply => .noReply

/-- A DONE ACK moves a tank step on from the phase it stands at (R102, R103). -/
def State.tankDone (l : Level) (sl : PlanSlot) (w : TankWork) (s : State) : Option Task × State :=
  match l.tankPhase with
  | 1 => (none, s.tankOther w)
  | 2 => (none, s.tankOpen w)
  | 3 => (none, s.tankWait w sl)
  | _ => s.advance

/-- An order failure in a tank step fails it. In phase 5 the valve "stays owned by the level at its last touched value,
which is 100" (R102, R103), so the touched set takes 100 back (log entry 15). -/
def State.tankFailed (l : Level) (sl : PlanSlot) (w : TankWork) (e : OrderEnd) (s : State) : Option Task × State :=
  match l.tankPhase, w.valve with
  | 5, some i => (s.modTop fun l => { l with touched := touch i 100 l.touched }).failStep l sl e.reason
  | _, _ => s.failStep l sl e.reason

/-- The end of the order that the running level's step awaits (R97, R98, R100, R102, R103). -/
def State.orderEnded (l : Level) (sl : PlanSlot) (e : OrderEnd) (s : State) : Option Task × State :=
  match sl.kind with
  | .holdLine => if e = .done then s.advance else (none, s.orderLine 0)
  | .runLine => if e = .done then s.advance else (none, s.orderLine sl.value)
  | .drain | .refill =>
    match s.tankWork sl with
    | some w => if e = .done then s.tankDone l sl w else s.tankFailed l sl w e
    | none => (none, s)
  | _ => if e = .done then s.advance else s.failStep l sl e.reason

/-- The executor takes the end of a plan order's transaction. An order that belongs to no waiting step is ignored
(R92, R123). -/
def State.planOrderEnded (depth step : Nat) (e : OrderEnd) (s : State) : State :=
  match s.running with
  | some l =>
    if depth = s.topDepth ∧ step = l.step ∧ l.wait = .ack then
      match s.runningSlot l with
      | some sl => State.runTask (s.orderEnded l sl e)
      | none => s
    else s
  | none => s

/-- The reading satisfies a WAIT_FOR step's test (R101). -/
def WaitTest.holds (t : WaitTest) (v limit : Nat) : Bool :=
  match t with
  | .above => limit < v
  | .below => v < limit
  | .equal => v = limit

/-- An OK reading of a channel satisfies the step that waits for it: WAIT_FOR's test, or the empty or operating level of
DRAIN or REFILL (R101 to R103). -/
def State.readingSatisfies (s : State) (sl : PlanSlot) (i : Nat) (v : Half) : Bool :=
  match sl.kind with
  | .waitFor =>
    waitRef sl.subject = i &&
      match waitTest sl.subject with
      | some t => t.holds v.toNat sl.value.toNat
      | none => false
  | .drain =>
    match s.tankWork sl with
    | some w => w.level = some i && v.toNat ≤ w.target
    | none => false
  | .refill =>
    match s.tankWork sl with
    | some w => w.level = some i && w.target ≤ v.toNat
    | none => false
  | _ => false

/-- What a satisfied wait does: WAIT_FOR completes, a tank step shuts its valve (R101 to R103). -/
def State.waitSatisfied (sl : PlanSlot) (s : State) : Option Task × State :=
  match sl.kind with
  | .drain | .refill =>
    match s.tankWork sl with
    | some w => (none, s.tankShut w)
    | none => (none, s)
  | _ => s.advance

/-- Stage 4 of taking a reading: a step that already waited as the reading began to be taken tests it (R48, R101 to
R103). -/
def State.executorReading (i : Nat) (v : Half) (ok : Bool) (s : State) : State :=
  match s.running with
  | some l =>
    if ok = true ∧ l.wait = .reading ∧ l.justBegun = false then
      match s.runningSlot l with
      | some sl => if s.readingSatisfies sl i v then State.runTask (s.waitSatisfied sl) else s
      | none => s
    else s
  | none => s

/-- A reading begins to be taken: every wait that stands now began before it (R101). -/
def State.markWaits (s : State) : State := s.setLevels (s.levels.map fun l => { l with justBegun := false })

/-- The running level's deadline is reached: WAIT_TIME completes, a wait for a reading fails with TIMEOUT (R101 to
R103). -/
def State.deadlineReached (s : State) : State :=
  match s.running with
  | some l =>
    if dueAt l.deadline s.now then
      match s.runningSlot l with
      | some sl =>
        if l.wait = .time then State.runTask s.advance else State.runTask (s.failStep l sl .timeout)
      | none => s
    else s
  | none => s

/-! ### RETAIN_RELEASE (R106) -/

/-- Every RETAINED channel returns to CONTROLLER, in ascending route index (R106). -/
def State.releaseRetained (s : State) : State := (s.ownedBy .retained).foldl (fun s i => s.toController i) s

end Sys2Proof.Machine
end

