-- ==== Sys2Proof/Machine/Latches.lean ====
section
/-! DEFINITION. Raises, the fault latch bank, containment, and the ways into ARMED (R70 to R82, R156, R177). -/

namespace Sys2Proof.Machine

/-- A raise into RESOLVED, PENDING, RECOVERING or FAILED counts, held at 255 (R74). -/
def countUp (n : Nat) : Nat := min Config.ceiling8 (n + 1)

/-- FAULT_LATCHED for a class and its first cause, with the line time its rule gives (R74, R77). -/
def State.notifyLatched (c : Nat) (cause : Cause) (t : Clock) (s : State) : State :=
  s.notifyAt t .faultLatched (word c) (optHalf cause.zone) (word cause.source.code)

/-- The latch becomes PENDING with a new first cause: FAULT_LATCHED when the class is enabled, auto-marking of the cause's
zone, and the executor's evaluation when the class is enabled (R22, R74). -/
def State.becomePending (c : Nat) (cause : Cause) (count : Nat) (s : State) : State :=
  let s1 := s.setLatch c { state := .pending, count := count, firstCause := some cause, ending := none }
  let s2 := if (s.classAt c).enable then s1.notifyLatched c cause cause.time else s1
  let s3 := match cause.zone with
    | some z => s2.autoMark c z cause.time
    | none => s2
  if (s.classAt c).enable then s3.runEvaluate else s3

/-- A raise reaches a latch (R74). -/
def State.latchRaise (c : Nat) (cause : Cause) (s : State) : State :=
  let l := s.latchAt c
  match l.state with
  | .clear => s.becomePending c cause 1
  | .resolved => s.becomePending c cause (countUp l.count)
  | .pending | .recovering | .failed => s.setLatch c { l with count := countUp l.count }

/-- Every present HEATER entry owes a force-off, none deferred (R80, R140). -/
def State.oweForceOffs (s : State) : State :=
  ((List.range Config.routes).filter fun i => s.hasKind i .heater).foldl
    (fun s i => s.modGate i fun c => { c with forceOffDue := true, deferred := false }) s

/-- Containment engages (R80). -/
def State.engageContainment (c : Nat) (zone : Option Nat) (s : State) : State :=
  (((s.setContain { engaged := true, firstCause := some { cls := c, zone := zone }, repeats := 0 }).oweForceOffs).setLock
    none).notify .containEngaged (word c) (optHalf zone) noneHalf

/-- A raise that is taken: a containment class engages containment, or while it is engaged is frozen and only counted;
the latch acts unless frozen (R70, R80, R81). -/
def State.takeRaise (c : Nat) (cause : Cause) (s : State) : State :=
  if c ≤ 2 then
    if s.contain.engaged then s.setContain { s.contain with repeats := countUp s.contain.repeats }
    else (s.engageContainment c cause.zone).latchRaise c cause
  else s.latchRaise c cause

/-- Entry to ARMED acts: the silence timer, then the executor's evaluation; credit ticks follow the clock (R156,
R177). -/
def State.enterArmed (s : State) : State := s.syncSilence.runEvaluate

/-- The causes of a WAKE notice (R177). -/
inductive WakeCause where
  | fault | request | traffic
  deriving DecidableEq, Repr

/-- The codes of the WAKE causes (R167). -/
def WakeCause.code : WakeCause → Nat
  | .fault => 1 | .request => 2 | .traffic => 3

/-- WATCH ends and the engine returns to ARMED (R177). -/
def State.endWatch (cause : WakeCause) (cls : Option Nat) (s : State) : State :=
  (((s.setWatch none).setEngine .armed).notify .wake (word cause.code) (optHalf cls) noneHalf).enterArmed

/-- A raise: taken in ARMED; in WATCH taken, and ending WATCH, when the class is watch-enabled; dropped otherwise (R70,
R177). -/
def State.raise (c : Nat) (cause : Cause) (s : State) : State :=
  match s.engine with
  | .armed => s.takeRaise c cause
  | .watch => if (s.classAt c).watch then (s.takeRaise c cause).endWatch .fault (some c) else s
  | .config | .checking => s

/-- FAULT_CLEAR returns a settled latch to CLEAR (R76). -/
def State.clearLatch (c : Nat) (s : State) : State := s.setLatch c Latch.reset

/-- The latch is RESOLVED or FAILED (R76). -/
def Latch.settled (l : Latch) : Bool := l.state = .resolved || l.state = .failed

/-- A CLASS commit acts on the class's latch: enabling a PENDING class queues FAULT_LATCHED with the commit's line time
and hands the latch to the executor (R77). -/
def State.classCommitted (c : Nat) (wasEnabled : Bool) (s : State) : State :=
  if !wasEnabled && (s.classAt c).enable && (s.latchAt c).state = .pending then
    match (s.latchAt c).firstCause with
    | some cause => (s.notifyLatched c cause s.now).runEvaluate
    | none => s.runEvaluate
  else s

/-- Containment disengages (R82). -/
def State.disengage (s : State) : State :=
  let zone := s.contain.firstCause.bind (·.zone)
  let cls := s.contain.firstCause.map (·.cls)
  (s.notify .containCleared (optHalf cls) (optHalf zone) (word s.contain.repeats)).setContain
    { engaged := false, firstCause := none, repeats := 0 }

/-- SILENCE_EXPIRY's own act: CTRL_SILENT, class 10, is raised and the deadline is set again (R72). -/
def State.expireSilence (s : State) : State :=
  let s1 := s.raise 10 { source := .silence, zone := none, value := s.silenceLimit, time := s.now }
  s1.setSilence (some (s1.now + seconds s1.silenceLimit))

end Sys2Proof.Machine
end

