-- ==== Sys2Proof/Machine/JournalEvents.lean ====
section
/-! DEFINITION. What readings of the eyes and of the conveyor ADVANCE channel do to the rack journal: line travel, edges,
entry and exit, removal, track faults (R2, R5, R9 to R21). -/

namespace Sys2Proof.Machine

/-- Track-fault subcauses (R17). -/
inductive TrackCause where
  | overflow | phantom | missed
  deriving DecidableEq, Repr

/-- The codes of the subcauses (R17). -/
def TrackCause.code : TrackCause → Nat
  | .overflow => 1 | .phantom => 2 | .missed => 3

/-- A track fault: the TRACK notice, then the raise of TRACK_FAULT, class 11 (R17). -/
def State.trackFault (k : TrackCause) (tag : Option Tag) (s : State) : State :=
  (s.notify .track (word k.code) (optHalf (tag.map (·.toNat))) noneHalf).raise 11
    { source := .track, zone := none, value := k.code, time := s.now }

/-- The indicator order: an ORDER of 100 to the unload indicator, dropped when the queue is full (R21). -/
def State.offerIndicator (s : State) : State :=
  match s.tables.line.bind (·.indicator) with
  | some i => if s.queueHasRoom then s.appendOrder i 100 (.indicator i) else s
  | none => s

/-- A record is removed: its disposition, its leaving the journal, RACK_LEFT, and the indicator order when it is not
ACCEPT (R19). -/
def State.removeRack (k : Nat) (missed : Bool) (s : State) : State :=
  match s.journal.racks[k]? with
  | none => s
  | some r =>
    let d := r.disposition s.tables missed
    let s1 := s.setJournal { s.journal with racks := s.journal.racks.eraseIdx k }
    let s2 := s1.notify .rackLeft (word r.tag.toNat) (word d.code) (r.leftFlags missed)
    if d = .accept then s2 else s2.offerIndicator

/-- The index of the oldest IN_LINE record. -/
def Journal.oldestInLine (j : Journal) : Option Nat := j.racks.findIdx? fun r => r.state = .inLine

/-- The index of the oldest AT_EXIT record. -/
def Journal.oldestAtExit (j : Journal) : Option Nat := j.racks.findIdx? fun r => r.state = .atExit

/-- A record is removed as a missed exit, and the track fault MISSED follows (R16, R20). -/
def State.removeMissed (k : Nat) (s : State) : State :=
  match s.journal.racks[k]? with
  | none => s
  | some r => (s.removeRack k true).trackFault .missed (some r.tag)

/-- The entry eye is blocked in ARMED: a record, or with 32 records an overflow (R10, R11). -/
def State.entryBlocked (s : State) : State :=
  if s.journal.racks.length < Config.journalCapacity then s.addRack
  else (s.setJournal { s.journal with overflow := true }).trackFault .overflow none

/-- An ENTERING record is finished: length, MERGED, IN_LINE (R12). -/
def Rack.finish (r : Rack) (travel : Travel) (maxLength : Nat) : Rack :=
  let len := max Config.minRackLength (r.position travel)
  { r with length := some len, merged := maxLength < len, state := .inLine }

/-- The entry eye clears in ARMED (R12). -/
def State.entryCleared (s : State) : State :=
  if s.journal.overflow then s.setJournal { s.journal with overflow := false }
  else
    match s.journal.racks.getLast?, s.tables.line with
    | some r, some l =>
      if r.state = .entering then
        s.setJournal { s.journal with
          racks := s.journal.racks.modify (s.journal.racks.length - 1) fun r => r.finish s.journal.travel l.maxLength }
      else s
    | _, _ => s

/-- The exit eye is blocked in ARMED: the oldest IN_LINE record becomes AT_EXIT in the window, is PHANTOM before it, and
is removed as missed beyond it (R15, R16). -/
def State.exitBlocked (s : State) : State :=
  match s.journal.oldestInLine, s.tables.line with
  | some k, some l =>
    match s.journal.racks[k]? with
    | some r =>
      let p := r.position s.journal.travel
      if p + l.exitTol < l.exitPos then s.trackFault .phantom (some r.tag)
      else if p ≤ l.exitPos + l.exitTol then
        s.setJournal { s.journal with racks := s.journal.racks.modify k fun r => { r with state := .atExit } }
      else s.removeMissed k
    | none => s
  | none, _ => s.trackFault .phantom none
  | some _, none => s

/-- The exit eye clears in ARMED: the AT_EXIT record is removed (R18). -/
def State.exitCleared (s : State) : State :=
  match s.journal.oldestAtExit with
  | some k => s.removeRack k false
  | none => s

/-- A reading of the entry eye: an edge acts in ARMED, and the last value is stored in every state (R9). -/
def State.entryEye (blocked : Bool) (s : State) : State :=
  if blocked = s.journal.entryLast then s
  else
    let s1 := if s.engine = .armed then (if blocked then s.entryBlocked else s.entryCleared) else s
    s1.setJournal { s1.journal with entryLast := blocked }

/-- A reading of the exit eye (R9). -/
def State.exitEye (blocked : Bool) (s : State) : State :=
  if blocked = s.journal.exitLast then s
  else
    let s1 := if s.engine = .armed then (if blocked then s.exitBlocked else s.exitCleared) else s
    s1.setJournal { s1.journal with exitLast := blocked }

/-- A record whose position would exceed 65535 has its entry travel moved forward by the excess (R5). -/
def Rack.ceil (r : Rack) (travel : Travel) : Rack :=
  if Config.ceiling16 < r.travelled travel then
    { r with entryTravel := r.entryTravel + BitVec.ofNat 24 (r.travelled travel - Config.ceiling16) }
  else r

/-- An ADVANCE update: L grows by the reading's value, positions are held to their ceiling, and the oldest IN_LINE record
beyond the exit window is removed as missed (R2, R5, R20). -/
def State.advanceTravel (v : Half) (s : State) : State :=
  let travel := s.journal.travel + v.setWidth 24
  let s1 := s.setJournal { s.journal with travel := travel, racks := s.journal.racks.map fun r => r.ceil travel }
  match s1.journal.oldestInLine, s1.tables.line with
  | some k, some l =>
    match s1.journal.racks[k]? with
    | some r => if l.exitPos + l.exitTol < r.position travel then s1.removeMissed k else s1
    | none => s1
  | _, _ => s1

/-- Stage 2 of taking a reading: the journal takes an OK reading of the channels that LINE names (R2, R9, R48). -/
def State.journalReading (i : Nat) (v : Half) (ok : Bool) (s : State) : State :=
  match s.tables.line with
  | none => s
  | some l =>
    if ok then
      let s1 := if l.entryEye = i then s.entryEye (v ≠ 0) else s
      let s2 := if l.exitEye = i then s1.exitEye (v ≠ 0) else s1
      if l.advance = i ∧ s2.engine = .armed ∧ v.toNat ≤ 255 then s2.advanceTravel v else s2
    else s

end Sys2Proof.Machine
end

