-- ==== Sys2Proof/Machine/Signatures.lean ====
section
/-! DEFINITION. The signature monitor: gate conditions, the tests, the window of CHANGE_BELOW, the persistence count and
the raise (R64 to R68). -/

namespace Sys2Proof.Machine

/-- The outcome of one evaluation (R64). -/
inductive Verdict where
  | hit | no | undecided
  deriving DecidableEq, Repr

/-- A gate condition holds on the applied value of its actuator entry (R65). -/
def State.gateHolds (s : State) (g : GateCond) : Bool :=
  if g.on then (s.imageAt g.ref).applied ≠ 0 else (s.imageAt g.ref).applied = 0

/-- Every condition of the gate list holds (R65). -/
def State.gatesHold (s : State) (e : SigEntry) : Bool :=
  (e.gateCount < 1 || s.gateHolds e.gate1) && (e.gateCount < 2 || s.gateHolds e.gate2)

/-- What a test of A found, with its value for the raise (R66, R68). -/
structure Evaluation where
  verdict : Verdict
  value   : Int
  deriving DecidableEq, Repr

/-- A decided test. -/
def decided (b : Bool) (value : Int) : Evaluation := { verdict := if b then .hit else .no, value := value }

/-- No decision. -/
def undecided : Evaluation := { verdict := .undecided, value := 0 }

/-- The outcome of a test other than CHANGE_BELOW at a reading of A, its gates holding (R66). `v` is the image value of A
and `ok` the reading's status. -/
def State.testReading (s : State) (e : SigEntry) (v : Half) (ok : Bool) : Evaluation :=
  let a : Int := v.toNat
  match e.test with
  | .above => if ok then decided (e.threshold < a) a else undecided
  | .below => if ok then decided (a < e.threshold) a else undecided
  | .equal => if ok then decided (a = e.threshold) a else undecided
  | .diffAbove =>
    match e.chB with
    | some b =>
      let cb := s.imageAt b
      if ok = true ∧ cb.status = .fresh then decided (e.threshold < a - cb.value.toNat) (a - cb.value.toNat)
      else undecided
    | none => undecided
  | .stale => decided false 0
  | .bad => decided (!ok) 0
  | .changeBelow => undecided

/-- A CHANGE_BELOW signature at a reading of A: its outcome and its new anchor, by the first of the five cases that
applies (R67). -/
def changeBelow (e : SigEntry) (gates : Bool) (anchor : Option (Half × Clock)) (v : Half) (ok : Bool) (now : Clock) :
    Evaluation × Option (Half × Clock) :=
  if !gates then (undecided, if ok then some (v, now) else none)
  else if !ok then (undecided, none)
  else
    match anchor with
    | none => (undecided, some (v, now))
    | some (v0, t0) =>
      if (now - t0).toNat < e.window * 100 then (undecided, some (v0, t0))
      else
        let change : Int := (v.toNat : Int) - v0.toNat
        (decided (change < e.threshold) change, some (v, now))

/-- A raise's value is held to the 16-bit signed range (R68). -/
def clampCause (v : Int) : Int := max (-32768) (min 32767 v)

/-- An outcome acts on the run state, and the MATCH that brings the count to the persistence raises the class (R64,
R68). -/
def State.settleSignature (g : Nat) (e : SigEntry) (ev : Evaluation) (anchor : Option (Half × Clock)) (s : State) :
    State :=
  let r := s.runAt g
  match ev.verdict with
  | .undecided => s.setRun g { r with anchor := anchor }
  | .no => s.setRun g { count := 0, last := .no, anchor := anchor }
  | .hit =>
    if e.persistence ≤ r.count + 1 then
      (s.setRun g { count := 0, last := .hit, anchor := anchor }).raise e.cls
        { source := .signature g, zone := e.zone, value := clampCause ev.value, time := s.now }
    else s.setRun g { count := r.count + 1, last := .hit, anchor := anchor }

/-- Evaluation takes place in ARMED, and in WATCH for watch-enabled classes (R64). -/
def State.evaluates (s : State) (e : SigEntry) : Bool :=
  match s.engine with
  | .armed => true
  | .watch => (s.classAt e.cls).watch
  | .config | .checking => false

/-- One signature at a reading of its channel A (R64 to R68). -/
def State.evalReading (g : Nat) (i : Nat) (v : Half) (ok : Bool) (s : State) : State :=
  match s.sigAt g with
  | none => s
  | some e =>
    if e.chA = i ∧ s.evaluates e = true then
      let anchor := (s.runAt g).anchor
      if e.test = .changeBelow then
        let r := changeBelow e (s.gatesHold e) anchor v ok s.now
        s.settleSignature g e r.1 r.2
      else s.settleSignature g e (if s.gatesHold e then s.testReading e v ok else undecided) anchor
    else s

/-- Stage 3 of taking a reading: the signatures of the channel in ascending index, each complete before the next (R48,
R64). -/
def State.monitorReading (i : Nat) (v : Half) (ok : Bool) (s : State) : State :=
  (List.range Config.signatures).foldl (fun s g => s.evalReading g i v ok) s

/-- One signature at the change of its channel A to STALE (R64, R66). -/
def State.evalStale (g : Nat) (i : Nat) (s : State) : State :=
  match s.sigAt g with
  | none => s
  | some e =>
    if e.test = .stale ∧ e.chA = i ∧ s.evaluates e = true then
      s.settleSignature g e (if s.gatesHold e then decided true 0 else undecided) (s.runAt g).anchor
    else s

/-- The signatures of test STALE of a channel that has become STALE (R51, R64). -/
def State.monitorStale (i : Nat) (s : State) : State :=
  (List.range Config.signatures).foldl (fun s g => s.evalStale g i) s

/-- A sensor channel is watched: channel A, or the channel B of a DIFF_ABOVE signature, of a present signature whose class
is watch-enabled (R175). -/
def State.watched (s : State) (i : Nat) : Bool :=
  s.isSensor i && (List.range Config.signatures).any fun g =>
    match s.sigAt g with
    | some e => (s.classAt e.cls).watch && (e.chA = i || (e.test = .diffAbove && e.chB = some i))
    | none => false

end Sys2Proof.Machine
end

