-- ==== Sys2Proof/Machine/Image.lean ====
section
/-! DEFINITION. The channel image: readings and their stages, acknowledgements, misses, ageing and keep-fresh polls (R46 to
R55), and the watch polls of WATCH (R176). -/

namespace Sys2Proof.Machine

/-! ### Readings and acknowledgements (R46 to R49) -/

/-- Stage 1: the image entry takes a reading (R47). -/
def ImageCell.read (c : ImageCell) (v : Half) (ok : Bool) (now : Clock) : ImageCell :=
  if ok then { c with value := v, status := .fresh, lastReading := some now, pollRef := some now }
  else { c with status := .bad, lastReading := some now, pollRef := some now }

/-- The image takes a reading for a sensor entry and hands it through stages 1 to 4 (R47, R48). The value handed on is the
one the image then holds. -/
def State.takeReading (i : Nat) (v : Half) (ok : Bool) (s : State) : State :=
  let s1 := s.markWaits.modImage i fun c => c.read v ok s.now
  (((s1.journalReading i v ok).monitorReading i (s1.imageAt i).value ok).executorReading i v ok)

/-- The image takes an ACK for an actuator entry: a DONE ACK sets the applied value (R49). -/
def State.takeAck (i : Nat) (status : Byte) (applied : Half) (s : State) : State :=
  if status = AckStatus.done then s.modImage i fun c => { c with applied := applied } else s

/-- The image is offered the reply of a non-transparent transaction and finds its entry in the ROUTE table as it stands
(R46). -/
def State.offerReply (f : Sys2Proof.Frame) (s : State) : State :=
  match s.findRoute f.src f.chan with
  | none => s
  | some (i, r) =>
    if f.kind = Kind.reading ∧ r.kind.isSensor = true then
      s.takeReading i f.readingValue (f.readingStatus = ReadingStatus.ok)
    else if f.kind = Kind.ack ∧ r.kind.isActuator = true then s.takeAck i f.ackStatus f.ackApplied
    else s

/-- The keep-fresh pending mark of an entry is cleared (R54). -/
def State.clearKeepPending (o : Origin) (s : State) : State :=
  match o with
  | .keepFresh i => s.modImage i fun c => { c with keepPending := false }
  | _ => s

/-- A miss of a POLL sets the poll reference time of the sensor entry polled (R52). -/
def State.missPoll (req : Sys2Proof.Frame) (s : State) : State :=
  if req.isPoll then
    match s.findRoute req.dst req.chan with
    | some (i, r) => if r.kind.isSensor then s.modImage i fun c => { c with pollRef := some s.now } else s
    | none => s
  else s

/-! ### The age check (R50 to R53) -/

/-- The age of an entry, in line-clock units; absent while no reading has been taken (R50). -/
def ImageCell.age (c : ImageCell) (now : Clock) : Option Nat := c.lastReading.map fun t => (now - t).toNat

/-- A FRESH entry has grown older than its stale limit (R51). -/
def staleDue (r : RouteEntry) (c : ImageCell) (now : Clock) : Bool :=
  c.status = .fresh && 1 ≤ r.stale && r.stale ≤ 255 &&
    match c.age now with
    | some a => r.stale * 10 < a
    | none => false

/-- A keep-fresh poll falls due for an entry (R53). -/
def keepFreshDue (r : RouteEntry) (c : ImageCell) (now : Clock) : Bool :=
  1 ≤ r.keepFresh && r.keepFresh ≤ 255 && !c.keepPending &&
    match c.pollRef with
    | some t => r.keepFresh * 10 ≤ (now - t).toNat
    | none => true

/-- The stale test of one entry: the change is handed to the signature monitor (R51). -/
def State.staleTest (i : Nat) (r : RouteEntry) (s : State) : State :=
  if staleDue r (s.imageAt i) s.now then
    (s.modImage i fun c => { c with status := .stale }).monitorStale i
  else s

/-- The keep-fresh test of one entry: a poll is appended while fewer than 8 frames wait, and the pending mark is set
(R53, R54). -/
def State.keepFreshTest (i : Nat) (r : RouteEntry) (s : State) : State :=
  if keepFreshDue r (s.imageAt i) s.now ∧ s.arbiter.queue.length < Config.pollLimit then
    (s.appendPoll i (.keepFresh i)).modImage i fun c => { c with keepPending := true }
  else s

/-- One sensor entry at an age check that fell in engine state `e`: in WATCH watched channels alone are aged, and
keep-fresh polls fall due in ARMED alone (R50, R51, R53). -/
def State.ageEntry (e : Engine) (i : Nat) (s : State) : State :=
  match s.routeAt i with
  | none => s
  | some r =>
    if r.kind.isSensor then
      let s1 := if e ≠ .watch ∨ s.watched i = true then s.staleTest i r else s
      if e = .armed then s1.keepFreshTest i r else s1
    else s

/-- The age check: every sensor entry in route-index order (R50). The engine state is that in which the check fell: a wake
within it lets keep-fresh polls fall due, and unwatched entries age, at the next check (R51, R177). -/
def State.ageAll (s : State) : State :=
  (List.range Config.routes).foldl (fun s' i => s'.ageEntry s.engine i) s

/-! ### Watch polls (R176) -/

/-- A watch poll for the channel is still in the queue (R176). -/
def State.watchQueued (s : State) (i : Nat) : Bool := s.arbiter.queue.any fun q => q.origin = .watch i

/-- One channel of a watch round (R176). -/
def State.offerWatchPoll (i : Nat) (s : State) : State :=
  if s.watched i = true ∧ s.arbiter.queue.length < Config.pollLimit ∧ s.watchQueued i = false then
    s.appendPoll i (.watch i)
  else s

/-- The watch deadline that an interval from LINE sets now (R174, R176). -/
def State.nextWatch (s : State) : Option Clock := s.tables.line.map fun l => s.now + seconds l.watchInterval

/-- A watch round: the next deadline first, then one poll for each watched channel in ascending route index (R176). -/
def State.watchRound (s : State) : State :=
  (List.range Config.routes).foldl (fun s i => s.offerWatchPoll i) (s.setWatch s.nextWatch)

end Sys2Proof.Machine
end

