-- ==== Sys2Proof/Machine/NodePort.lean ====
section
/-! DEFINITION. The N-port: node transactions, their replies and misses handed on stage by stage, stray and malformed
frames, and the line arbiter's choice and sending (R120 to R124, R133, R140, R141, R146). -/

namespace Sys2Proof.Machine

/-! ### Replies (R120) -/

/-- A received frame is the open transaction's reply (R120). -/
def NodeTrans.isReply (t : NodeTrans) (f : Sys2Proof.Frame) : Bool :=
  f.src = t.req.dst && f.dst = t.req.src && f.seq = t.req.seq &&
    (!t.req.isOrder || (f.kind = Kind.ack && f.payload.length = 4 && f.chan = t.req.chan)) &&
    (!t.req.isPoll || (f.kind = Kind.reading && f.payload.length = 4 && f.chan = t.req.chan))

/-- The transaction carries a transparent frame (R116). -/
def Origin.transparent : Origin → Bool
  | .controller { req := _, kind := .transparent } => true
  | _ => false

/-! ### Force-offs end (R141) -/

/-- The end of a force-off: a DONE ACK clears its flag and mark; so does any end while containment is off; under
containment another end leaves it due and defers it (R141). Of a flag that a ROUTE commit cleared while the force-off was on
the line the rule says nothing: the mark stays clear with it (DESIGN CHOICE, log entry 25). -/
def State.forceOffEnded (i : Nat) (done : Bool) (s : State) : State :=
  if done || !s.contain.engaged then s.modGate i fun c => { c with forceOffDue := false, deferred := false }
  else s.modGate i fun c => { c with deferred := c.forceOffDue }

/-- Stage 3: the originating block takes the transaction's end (R123). `e` says how the transaction ended. The origin is
read as it stands, since an earlier stage may have suspended the level that placed the order. -/
def State.originEnded (e : OrderEnd) (s : State) : State :=
  match s.ports.trans with
  | none => s
  | some t =>
    match t.origin with
    | .forceOff i => s.forceOffEnded i (e = .done)
    | .replay i => s.replayEnded i
    | .plan d st _ => s.planOrderEnded d st e
    | _ => s

/-! ### Stage 4 (R111, R114, R124, R131, R133) -/

/-- The value sent for a gated order differs from the one the cycle controller sent (R133). -/
def orderRewritten (c : CtlFrame) (sent : Sys2Proof.Frame) : Bool :=
  match c.kind with
  | .order _ _ => sent.orderValue ≠ c.req.orderValue
  | _ => false

/-- The reply to a controller frame goes upstream: forwarded, or for a converted POLL as the gate's PROTECTED ACK (R123,
R131). -/
def State.forwardReply (c : CtlFrame) (sent f : Sys2Proof.Frame) (s : State) : State :=
  match c.kind with
  | .protectedPoll _ _ => s.reply (gateAck c.req AckStatus.protectedStatus f.readingValue)
  | _ => s.reply (forwardedReply f (orderRewritten c sent))

/-- The applied value that a NO_REPLY ACK carries: that of the routed actuator entry, else 0 (R124, R131). -/
def State.noReplyApplied (s : State) (k : CtlKind) : Half :=
  match k with
  | .order i _ => (s.imageAt i).applied
  | .protectedPoll i _ => (s.imageAt i).applied
  | .transparent | .poll _ => 0

/-- The NO_REPLY reply to a controller frame (R124). -/
def State.missReply (c : CtlFrame) (s : State) : State :=
  if c.req.isPoll then s.reply (noReplyReading c.req) else s.reply (noReplyAck c.req (s.noReplyApplied c.kind))

/-! ### The ends of a node transaction (R122, R123) -/

/-- Stage 2 with a reply (R46, R54, R123). -/
def State.imageTakesReply (t : NodeTrans) (f : Sys2Proof.Frame) (s : State) : State :=
  if t.origin.transparent then s else (s.clearKeepPending t.origin).offerReply f

/-- Stage 2 with a miss (R52, R54, R123). -/
def State.imageTakesMiss (t : NodeTrans) (s : State) : State :=
  if t.origin.transparent then s else (s.clearKeepPending t.origin).missPoll t.req

/-- How a reply ends a transaction that carried an ORDER (R97, R141). -/
def replyEnd (f : Sys2Proof.Frame) : OrderEnd :=
  if f.kind = Kind.ack ∧ f.ackStatus = AckStatus.done then .done else .refused

/-- Stage 4 with a reply: a controller frame's reply goes upstream (R123). -/
def State.upstreamReply (t : NodeTrans) (f : Sys2Proof.Frame) (s : State) : State :=
  match t.origin with
  | .controller c => s.forwardReply c t.req f
  | _ => s

/-- Stage 4 with a miss (R123, R124). -/
def State.upstreamMiss (t : NodeTrans) (s : State) : State :=
  match t.origin with
  | .controller c => s.missReply c
  | _ => s

/-- A node transaction ends with its reply: the miss count, the image and what it hands on, the originating block; the
transaction is then over, and a controller frame's reply goes upstream (R123). -/
def State.endWithReply (t : NodeTrans) (f : Sys2Proof.Frame) (s : State) : State :=
  ((((s.setMisses t.req.dst 0).imageTakesReply t f).originEnded (replyEnd f)).setTrans none).upstreamReply t f

/-- Stage 1 with a miss: the count rises, held at 3, and NODE_SILENT, class 9, is raised as it reaches 3 (R71, R122). -/
def State.countMiss (node : Byte) (s : State) : State :=
  let n := s.missesAt node
  let s1 := s.setMisses node (min 3 (n + 1))
  if n = 2 then s1.raise 9 { source := .node, zone := none, value := node.toNat, time := s.now } else s1

/-- A node transaction ends with a miss (R123, R124). -/
def State.endWithMiss (t : NodeTrans) (s : State) : State :=
  ((((s.countMiss t.req.dst).imageTakesMiss t).originEnded .noReply).setTrans none).upstreamMiss t

/-- A frame that is not the reply has ended: after the expiry the transaction misses, before it it goes on waiting (R120,
R121). -/
def State.nonReplyEnded (s : State) : State :=
  match s.ports.trans with
  | none => s
  | some t => if t.expired then s.endWithMiss t else s.setTrans (some { t with begun := false })

/-- A well-formed or malformed frame received whole on the N-port (R110, R120, R121). -/
def State.receiveN (f : Sys2Proof.Frame) (s : State) : State :=
  if f.malformed then s.setBadN.nonReplyEnded
  else
    match s.ports.trans with
    | none => s.setStray
    | some t => if t.isReply f then s.endWithReply t f else s.setStray.nonReplyEnded

/-- The reply timeout expires: the transaction misses, unless a frame has begun to arrive, which is then received to its
end (R120). -/
def State.timeoutExpires (s : State) : State :=
  match s.ports.trans with
  | none => s
  | some t =>
    if t.timing then
      if t.begun then s.setTrans (some { t with expired := true }) else s.endWithMiss t
    else s

/-- A frame that began to arrive before the expiry ends after it (R120). -/
def State.lateFrame (f : Sys2Proof.Frame) (s : State) : State :=
  match s.ports.trans with
  | some t => (if t.timing then s.setTrans (some { t with begun := true, expired := true }) else s).receiveN f
  | none => s.receiveN f

/-! ### The line arbiter (R133, R140, R141, R146) -/

/-- The N-side is free: no transaction is open and no frame is being sent (R120). -/
def State.nFree (s : State) : Bool := s.ports.trans.isNone && s.ports.sending.isNone

/-- What the arbiter can choose. -/
inductive Choice where
  | forceOff (index : Nat)
  | controller (c : CtlFrame)
  | injected (q : QFrame)
  deriving DecidableEq, Repr

/-- The force-off of lowest route index that is due, deferred or not as asked (R146). -/
def State.dueForceOff (s : State) (deferred : Bool) : Option Nat :=
  (List.range Config.routes).find? fun i => (s.gateAt i).forceOffDue && (s.gateAt i).deferred = deferred

/-- Cases 2 to 4: under the sequence lock the controller frame alone, under lockout the queue alone, else the one whose
source was not served last (R146). -/
def State.chooseFrame (s : State) : Option Choice :=
  let ctl := s.arbiter.waiting.map Choice.controller
  let inj := s.arbiter.queue.head?.map Choice.injected
  if s.gate.lock.isSome then ctl
  else if s.lockoutHeld then inj
  else if s.arbiter.lastServed = .injected then ctl.or inj
  else inj.or ctl

/-- The arbiter's choice (R146). -/
def State.choose (s : State) : Option Choice :=
  ((s.dueForceOff false).map Choice.forceOff).or (s.chooseFrame.or ((s.dueForceOff true).map Choice.forceOff))

/-- Sending a transaction other than a force-off clears every deferred mark (R141). -/
def State.clearDeferred (s : State) : State :=
  (List.range Config.routes).foldl (fun s i => s.modGate i fun c => { c with deferred := false }) s

/-- A frame leaves the N-port for a node and opens a node transaction with the reply timeout as it stands (R120). -/
def State.openTrans (f : Sys2Proof.Frame) (o : Origin) (s : State) : State :=
  (s.setSending (some f)).setTrans
    (some { req := f, origin := o, timeoutMs := s.replyTimeout, timing := false, begun := false, expired := false })

/-- An ORDER's frame with another value. -/
def withValue (f : Sys2Proof.Frame) (v : Half) : Sys2Proof.Frame := { f with payload := orderPayload f.chan v }

/-- The departure rule for an ORDER other than a transparent frame: to a HEATER it carries 0 under containment, and while
containment is off it clears the heater's force-off flag and mark (R133, R141). -/
def State.depart (f : Sys2Proof.Frame) (o : Origin) (s : State) : State :=
  if f.isOrder = true ∧ o.transparent = false then
    match s.findRoute f.dst f.chan with
    | some (i, r) =>
      if r.kind = .heater then
        if s.contain.engaged then s.openTrans (withValue f 0) o
        else (s.modGate i fun c => { c with forceOffDue := false, deferred := false }).openTrans f o
      else s.openTrans f o
    | none => s.openTrans f o
  else s.openTrans f o

/-- A force-off is built and sent: an ORDER of 0 with the engine SEQ, which then advances (R140). -/
def State.sendForceOff (i : Nat) (s : State) : State :=
  match s.routeAt i with
  | some r => (s.openTrans (s.engineFrame r.node Kind.order (orderPayload r.chan 0)) (.forceOff i)).bumpSeq
  | none => s

/-- The frame that the controller frame puts on the N-side: the cycle controller's own, from 61 with its SEQ, its flags
clear and an order's value as let through; for a converted order the POLL (R111, R131, R133). -/
def CtlFrame.outgoing (c : CtlFrame) : Sys2Proof.Frame :=
  let plain : Sys2Proof.Frame := { c.req with flags := {} }
  match c.kind with
  | .order _ v => withValue plain v
  | .protectedPoll _ p => p
  | .transparent | .poll _ => plain

/-- The controller frame is sent (R133, R146). -/
def State.sendController (c : CtlFrame) (s : State) : State :=
  (((s.setWaiting none).setServed .controller).clearDeferred).depart c.outgoing (.controller c)

/-- The head of the injected-frame queue is removed and sent; its place is filled from the room list. A PHASE broadcast
opens no transaction (R120, R142, R143, R146). -/
def State.sendInjected (q : QFrame) (s : State) : State :=
  let s1 := (((s.setQueue s.arbiter.queue.tail).fillRoom).setServed .injected).clearDeferred
  match q.origin with
  | .phase => s1.setSending (some q.frame)
  | _ => s1.depart q.frame q.origin

/-- The chosen frame is sent. -/
def State.sendChoice (c : Choice) (s : State) : State :=
  match c with
  | .forceOff i => s.sendForceOff i
  | .controller c => s.sendController c
  | .injected q => s.sendInjected q

/-- The arbiter chooses and sends the next frame when the N-side is free and a frame can be chosen (R146). -/
def State.arbitrate (s : State) : State :=
  if s.nFree then
    match s.choose with
    | some c => s.sendChoice c
    | none => s
  else s

/-- The last character of the frame being sent has gone: a transaction's reply timeout starts, or after a PHASE broadcast
and its idle gap the N-side is free (R120). -/
def State.sendEnded (s : State) : State :=
  match s.ports.sending with
  | none => s
  | some _ =>
    let s1 := s.setSending none
    match s1.ports.trans with
    | some t => s1.setTrans (some { t with timing := true })
    | none => s1

/-- A frame begins to arrive while a node transaction is open (R120). -/
def State.replyBegins (s : State) : State :=
  match s.ports.trans with
  | some t => s.setTrans (some { t with begun := true })
  | none => s

end Sys2Proof.Machine
end

