-- ==== Sys2Proof/Machine/Reports.lean ====
section
/-! DEFINITION. The reply data bytes of the requests that read state: STATUS, NOTICE_FETCH, RACK_READ, LATCH_READ,
CHANNEL_READ, LEVEL_READ and TABLE_READ (R25, R58, R78, R108, R161, R164, R169, R170). -/

namespace Sys2Proof.Machine

/-! ### STATUS (R164, R170, R171) -/

/-- Byte 1 of STATUS: engaged in bit 7, the first cause's class in bits 5 and 4 and its zone in bits 3 to 0, 15 for
none; class 0 and zone 15 while containment is off (R164, R170). Bit 6, which the manual gives no field, is sent as 0 (DESIGN
CHOICE, log entry 28). -/
def Containment.statusByte (c : Containment) : Byte :=
  match c.firstCause with
  | some f => bit c.engaged 7 ||| byte (16 * (f.cls % 4)) ||| byte (f.zone.getD 15 % 16)
  | none => bit c.engaged 7 ||| 15

/-- The eligible-pending summary: bit n is set when latch n is PENDING and class n is enabled (R170). -/
def State.eligibleSummary (s : State) : Half :=
  (List.range Config.classes).foldl (fun w c => if s.eligible c then w ||| BitVec.ofNat 16 (2 ^ c) else w) 0

/-- The class of the level at a depth, NONE when there is none (R170). -/
def State.depthClass (s : State) (d : Nat) : Byte := optByte ((s.levels[d]?).map (·.cls))

/-- The 14 data bytes of STATUS (R164). -/
def State.statusData (s : State) : List Byte :=
  [byte (16 * s.engine.code + s.ports.phase.code), s.contain.statusByte, s.depthClass 0, s.depthClass 1,
   s.depthClass 2] ++
  bytes2 s.eligibleSummary ++
  [byte s.journal.racks.length, byte s.notices.length, optByte (s.mgmt.lastResult.map Result.code),
   byte (16 * s.mgmt.detail.table + s.mgmt.detail.reason.code), byte s.mgmt.detail.index, byte s.mgmt.detail.sub,
   s.ports.sticky.toByte]

/-! ### NOTICE_FETCH (R164, R169) -/

/-- The 12 data bytes of a fetched notice, with the number that remain. -/
def Notice.data (n : Notice) (remaining : Nat) : List Byte :=
  (byte n.kind.code ||| bit n.overflowed 7) :: bytes4 n.time ++ bytes2 n.a ++ bytes2 n.b ++ bytes2 n.c ++
  [byte remaining]

/-! ### RACK_READ (R25, R164) -/

/-- The signed 2-byte field of a centre. Above 32767 it is the part's own (log entry 12). -/
def centreHalf (c : Int) : Half := if c ≤ 32767 then signedHalf c else Config.centreField c

/-- Page 0 of RACK_READ. Bits without a field are sent as 0 (log entry 28). -/
def State.rackPage0 (s : State) (k : Nat) (r : Rack) : List Byte :=
  let centre := r.centre s.journal.travel
  byte k :: bytes2 (word r.tag.toNat) ++
  [byte r.state.code ||| bit r.merged 4 ||| bit r.rerun 5 ||| bit r.overlap.isSome 6] ++
  bytes3 r.entryTravel ++ bytes2 (word (r.position s.journal.travel)) ++ bytes2 (word (r.length.getD 0)) ++
  bytes2 (centreHalf centre) ++ [optByte (s.tables.zoneOf centre)]

/-- Page 1 of RACK_READ; an absent overlap has every bit set (R163). -/
def Rack.page1 (r : Rack) : List Byte :=
  [optByte (r.overlap.map (·.cls)), optByte (r.overlap.map (·.zone))] ++ optBytes4 (r.overlap.map (·.time)) ++
  [byte r.credits.length]

/-- One credit entry of RACK_READ, every bit set when there is none (R163, R164, log entry 12); bits without a field are
sent as 0 (log entry 28). -/
def creditBytes (c : Option Credit) : List Byte :=
  match c with
  | some c => (byte (c.zone % 8) ||| bit c.gap 7) :: bytes2 (word c.heat) ++ bytes2 (word c.action)
  | none => [0xFF, 0xFF, 0xFF, 0xFF, 0xFF]

/-- Pages 2 to 5 of RACK_READ. -/
def Rack.creditPage (r : Rack) (p : Nat) : List Byte :=
  creditBytes r.credits[2 * (p - 2)]? ++ creditBytes r.credits[2 * (p - 2) + 1]?

/-- A page of RACK_READ. -/
def State.rackPage (s : State) (k : Nat) (r : Rack) (p : Nat) : List Byte :=
  if p = 0 then s.rackPage0 k r else if p = 1 then r.page1 else r.creditPage p

/-- The journal index that a RACK_READ names, by index or by tag (R25). -/
def State.rackIndex (s : State) (byTag : Bool) (key : Nat) : Option Nat :=
  if byTag then s.journal.racks.findIdx? fun r => r.tag.toNat = key
  else if key < s.journal.racks.length then some key else none

/-! ### LATCH_READ (R78, R164) -/

/-- A latch as LATCH_READ shows it: a disabled class reads as CLEAR (R77, R78). -/
def State.shownLatch (s : State) (c : Nat) : Latch := if (s.classAt c).enable then s.latchAt c else Latch.reset

/-- The first cause in LATCH_READ, every bit set when absent (R163). -/
def causeBytes (c : Option Cause) : List Byte :=
  match c with
  | some c => [byte c.source.code, optByte c.zone] ++ bytes2 (signedHalf c.value) ++ bytes4 c.time
  | none => [0xFF, 0xFF, 0xFF, 0xFF, 0xFF, 0xFF, 0xFF, 0xFF]

/-- The ending byte: absent 0 (R164). -/
def endingByte (e : Option Ending) : Byte :=
  match e with
  | some e => byte e.code
  | none => 0

/-- The 12 data bytes of LATCH_READ. R164 gives bit 2 of byte 0 as containment engaged for every reply, R78 the flag for a
containment class: for the other classes the model sends 0 (DESIGN CHOICE, log entry 31). Bits without a field are sent as 0
(log entry 28). -/
def State.latchData (s : State) (c : Nat) : List Byte :=
  let e := s.classAt c
  let l := s.shownLatch c
  [bit e.enable 0 ||| bit e.watch 1 ||| bit (c ≤ 2 && s.contain.engaged) 2, byte l.state.code, byte l.count] ++
  causeBytes l.firstCause ++ [endingByte l.ending]

/-! ### CHANNEL_READ (R58, R164) -/

/-- Time of last reading and age, 0 while NEVER; the age held to 65535 (R58, R163). -/
def ImageCell.timeBytes (c : ImageCell) (now : Clock) : List Byte :=
  match c.status, c.lastReading with
  | .never, _ => [0, 0, 0, 0, 0, 0]
  | _, some t => bytes4 t ++ bytes2 (word (min Config.ceiling16 (now - t).toNat))
  | _, none => [0xFF, 0xFF, 0xFF, 0xFF, 0xFF, 0xFF]

/-- Held slot code and held value, absent while the slot is EMPTY (R163, R164). -/
def HeldSlot.bytes (h : HeldSlot) : List Byte :=
  match h with
  | .empty => [0, 0xFF, 0xFF]
  | .held v => 1 :: bytes2 v
  | .replayDue v => 2 :: bytes2 v

/-- The data bytes of CHANNEL_READ for a sensor or an actuator entry. Bits without a field are sent as 0 (log entry 28). -/
def State.channelData (s : State) (i : Nat) (r : RouteEntry) : List Byte :=
  let c := s.imageAt i
  let g := s.gateAt i
  [byte r.kind.code, r.node, r.chan] ++
  if r.kind.isSensor then
    bytes2 c.value ++ [byte c.status.code ||| bit c.keepPending 7] ++ c.timeBytes s.now
  else
    bytes2 c.applied ++ [byte g.owner.code] ++ g.held.bytes ++
    [bit g.forceOffDue 0 ||| bit g.deferred 1, byte r.group]

/-! ### LEVEL_READ (R108, R164) -/

/-- Time remaining in 100 ms units: whole units, and for a remainder the part's own rounding (log entry 5), held to
65535; 0 once the deadline is reached and not yet taken. -/
def remainingUnits (deadline now : Clock) : Nat :=
  if reached deadline now then 0
  else
    let rem := (deadline - now).toNat
    min Config.ceiling16 (rem / 10 + if rem % 10 ≠ 0 && Config.remainderRoundsUp rem then 1 else 0)

/-- Page 0 of LEVEL_READ. Bits without a field are sent as 0 (log entry 28). -/
def State.levelPage0 (s : State) (d : Nat) (l : Level) : List Byte :=
  [byte d ||| bit (d + 1 = s.levels.length) 7, byte l.cls, byte l.plan, byte l.step,
   byte (16 * l.tankPhase + l.wait.code)] ++
  bytes2 (optHalf (l.deadline.map fun t => remainingUnits t s.now)) ++
  [optByte l.cap, bit l.lockout 0 ||| bit l.deadline.isSome 1, byte l.touched.length]

/-- One touched entry, every bit set when there is none (R163, R164, log entry 12). -/
def State.touchedBytes (s : State) (d : Nat) (e : Option (Nat × Half)) : List Byte :=
  match e with
  | some (i, v) => [byte i ||| bit ((s.gateAt i).owner = .level d) 7, loByte v]
  | none => [0xFF, 0xFF]

/-- A page of LEVEL_READ. -/
def State.levelPage (s : State) (d : Nat) (l : Level) (p : Nat) : List Byte :=
  if p = 0 then s.levelPage0 d l
  else (List.range 6).flatMap fun k => s.touchedBytes d l.touched[6 * (p - 1) + k]?

/-! ### TABLE_READ (R161, R164, R165) -/

/-- TABLE_READ accepts the part for the table (R161). -/
def readsPart (t : TableId) (part : Nat) : Bool :=
  match t with
  | .zone => part = 1 || part = 2
  | .curve => part ≤ 2
  | _ => part = 0

/-- The data bytes of a committed entry, `none` when it is absent (R161). -/
def State.tableData (s : State) (t : TableId) (i step part : Nat) : Option (List Byte) :=
  match t with
  | .line => s.tables.line.map encodeLine
  | .route => (s.routeAt i).map encodeRoute
  | .zone => (s.zoneAt i).map fun z => if part = 2 then encodeZoneLast z else encodeZoneFirst z
  | .curve => (s.curveAt i).map fun c => if part = 2 then encodeCurveLast c else encodeCurveFirst c
  | .signature => (s.sigAt i).map encodeSignature
  | .cls => (s.tables.cls[i]?).map encodeClass
  | .select => ((s.tables.select[i]?).join).map encodeSelect
  | .plan => (s.planSlot i step).map (encodePlanSlot step)

/-- The RUN view of a signature; an absent anchor has every bit set (R161, R163, R164). -/
def SigRun.data (r : SigRun) : List Byte :=
  [byte r.count, byte r.last.code] ++
  match r.anchor with
  | some (v, t) => 1 :: bytes2 v ++ bytes4 t
  | none => [0, 0xFF, 0xFF, 0xFF, 0xFF, 0xFF, 0xFF]

end Sys2Proof.Machine
end

