-- ==== Sys2Proof/Machine/TableLoad.lean ====
section
/-! DEFINITION. TABLE_WRITE: its refusals in order, the validation and the commit of each table, and the staging buffer
(R33, R61, R77, R85, R87, R117, R118, R159, R160). -/

namespace Sys2Proof.Machine

/-! ### Commits, one per table (R159) -/

/-- What a write answers, with the state it leaves. -/
abbrev WriteOutcome := Result × State

/-- The LINE record is replaced (R118). -/
def State.commitLine (l : LineRecord) (s : State) : State := s.setTables { s.tables with line := some l }

/-- Another present route entry holds the pair (R117). -/
def State.pairTaken (s : State) (i : Nat) (r : RouteEntry) : Bool :=
  (List.range Config.routes).any fun j =>
    j ≠ i && match s.routeAt j with
      | some o => o.node = r.node && o.chan = r.chan
      | none => false

/-- A ROUTE entry is replaced; its image entry is reset but for the keep-fresh pending mark, and its gate entry with it
(R56, R117, R128). -/
def State.commitRoute (i : Nat) (r : RouteEntry) (s : State) : State :=
  ((s.setTables { s.tables with route := s.tables.route.setIfInBounds i (some r) }).modImage i fun c =>
    { ImageCell.reset with keepPending := c.keepPending }).modGate i fun _ => GateCell.reset

/-- A ZONE entry is replaced. -/
def State.commitZone (i : Nat) (z : ZoneEntry) (s : State) : State :=
  s.setTables { s.tables with zone := s.tables.zone.setIfInBounds i (some z) }

/-- A CURVE entry is replaced whole (R33). -/
def State.commitCurve (i : Nat) (c : CurveEntry) (s : State) : State :=
  s.setTables { s.tables with curve := s.tables.curve.setIfInBounds i (some c) }

/-- A SIGNATURE entry is replaced and its run state reset (R61). -/
def State.commitSignature (i : Nat) (e : SigEntry) (s : State) : State :=
  (s.setTables { s.tables with signature := s.tables.signature.setIfInBounds i (some e) }).setRun i SigRun.reset

/-- A CLASS entry is replaced, and the commit acts on the latch (R77). -/
def State.commitClass (c : Nat) (e : ClassEntry) (s : State) : State :=
  (s.setTables { s.tables with cls := s.tables.cls.setIfInBounds c e }).classCommitted c (s.classAt c).enable

/-- A SELECT row is replaced (R87). -/
def State.commitSelect (c : Nat) (r : SelectRow) (s : State) : State :=
  s.setTables { s.tables with select := s.tables.select.setIfInBounds c (some r) }

/-- A PLAN step slot is replaced (R85). -/
def State.commitSlot (plan step : Nat) (p : PlanSlot) (s : State) : State :=
  s.setTables { s.tables with plan := s.tables.plan.setIfInBounds (Config.steps * plan + step) (some p) }

/-! ### SINGLE parts (R159) -/

/-- An entry that its own ranges admit is committed with OK, else refused with BAD_VALUE. -/
def commitOr {α : Type} (entry : Option α) (commit : α → State → State) (s : State) : WriteOutcome :=
  match entry with
  | some e => (.ok, commit e s)
  | none => (.badValue, s)

/-- A ROUTE SINGLE: the refusals, then the commit (R117, R159). The rules give BAD_VALUE and DUPLICATE no order: BAD_VALUE comes
first (DESIGN CHOICE, log entry 34). -/
def State.writeRoute (i : Nat) (data : List Byte) (s : State) : WriteOutcome :=
  match parseRoute data with
  | none => (.badValue, s)
  | some r => if s.pairTaken i r then (.duplicate, s) else (.ok, s.commitRoute i r)

/-- The second half of a CURVE written as SINGLE: zeros (R161). -/
def zeroPoints : List Breakpoint := [{ x := 0, w := 0 }, { x := 0, w := 0 }, { x := 0, w := 0 }, { x := 0, w := 0 }]

/-- A CURVE written as SINGLE: at most 4 breakpoints (R159). -/
def parseCurveSingle (data : List Byte) : Option CurveEntry :=
  if (data.getD 0 0).toNat ≤ 4 then parseCurve (data.getD 0 0) (parsePoints (data.drop 1) ++ zeroPoints) else none

/-- A SINGLE part is validated and committed (R159). ZONE has no SINGLE part. -/
def State.writeSingle (t : TableId) (i : Nat) (data : List Byte) (s : State) : WriteOutcome :=
  match t with
  | .line => commitOr (parseLine data) State.commitLine s
  | .route => s.writeRoute i data
  | .zone => (.badValue, s)
  | .curve => commitOr (parseCurveSingle data) (State.commitCurve i) s
  | .signature => commitOr (parseSignature data) (State.commitSignature i) s
  | .cls => commitOr (parseClass data) (State.commitClass i) s
  | .select => commitOr (parseSelect data) (State.commitSelect i) s
  | .plan => commitOr (parsePlanSlot data) (State.commitSlot i (data.getD 0 0).toNat) s

/-! ### FIRST and LAST parts (R160) -/

/-- A FIRST part replaces the staging buffer's contents (R160). -/
def State.writeFirst (t : TableId) (i : Nat) (data : List Byte) (s : State) : WriteOutcome :=
  (.ok, s.setStaging (some { table := t, index := i, data := data }))

/-- A CURVE from its two parts. -/
def parseCurveJoined (first last : List Byte) : Option CurveEntry :=
  parseCurve (first.getD 0 0) (parsePoints (first.drop 1) ++ parsePoints last)

/-- The two parts joined, validated as a whole and committed, or refused with BAD_VALUE (R160). -/
def State.writeJoined (t : TableId) (i : Nat) (first last : List Byte) (s : State) : WriteOutcome :=
  match t with
  | .zone => commitOr (parseZone first last) (State.commitZone i) s
  | .curve => commitOr (parseCurveJoined first last) (State.commitCurve i) s
  | _ => (.badValue, s)

/-- A LAST part: STAGE_MISMATCH unless the buffer holds the first part of the same entry; otherwise the joined entry is
committed or refused, and the buffer is emptied either way (R160). -/
def State.writeLast (t : TableId) (i : Nat) (data : List Byte) (s : State) : WriteOutcome :=
  match s.mgmt.staging with
  | some b => if b.table = t ∧ b.index = i then (s.setStaging none).writeJoined t i b.data data else (.stageMismatch, s)
  | none => (.stageMismatch, s)

/-! ### The refusals of R159 -/

/-- NOT_LIVE: a structural table in ARMED or WATCH, a live table in WATCH (R159). -/
def State.notLive (s : State) (t : TableId) : Bool := s.engine = .watch || (s.engine = .armed && !t.isLive)

/-- The index lies inside the table, and for PLAN a step that is given lies inside the plan (R159). -/
def TableId.indexOk (t : TableId) (i : Nat) (step : Option Byte) : Bool :=
  i < t.size &&
    match t, step with
    | .plan, some st => st.toNat < Config.steps
    | _, _ => true

/-- The part is one the table accepts, the data have its length, and bits 3 and 2 of the table byte are 0 (R159, R164). The
manual does not place the test of bits 3 and 2 among the refusals: it stands here, with the part and the length, after
NOT_LIVE and BAD_INDEX (DESIGN CHOICE, log entry 27). -/
def partOk (t : TableId) (tb : Byte) (data : List Byte) : Bool :=
  !tableBit3 tb && !tableRun tb && partLength t (tablePart tb) = some data.length

/-- A part that has passed the refusals. -/
def State.writePart (t : TableId) (part i : Nat) (data : List Byte) (s : State) : WriteOutcome :=
  if part = 1 then s.writeFirst t i data else if part = 2 then s.writeLast t i data else s.writeSingle t i data

/-- TABLE_WRITE after the tests of R152 (R159). -/
def State.writeTable (tb idx : Byte) (data : List Byte) (s : State) : WriteOutcome :=
  match TableId.ofCode (tableNibble tb) with
  | none => (.badIndex, s)
  | some t =>
    if s.notLive t then (.notLive, s)
    else if !t.indexOk idx.toNat data.head? then (.badIndex, s)
    else if !partOk t tb data then (.badValue, s)
    else s.writePart t (tablePart tb) idx.toNat data

end Sys2Proof.Machine
end

