-- ==== Sys2Proof/Machine/Responder.lean ====
section
/-! DEFINITION. The management responder: how each request is served once it has passed the tests of R152, each with its
own result and reply (R25, R58, R76, R78, R82, R106, R108, R129, R145, R150 to R161, R164, R169, R170, R174, R177). -/

namespace Sys2Proof.Machine

/-- The reply to a request, with its result and data; it writes the last result (R152). -/
def State.answer (r : Request) (seq : Byte) (res : Result) (data : List Byte) (s : State) : State :=
  s.mgmtAnswer seq r.code res data

/-! ### Open requests -/

/-- STATUS: the 14 bytes, and the sticky flags cleared; the last result is not written (R170, R171). -/
def State.serveStatus (seq : Byte) (_ : List Byte) (s : State) : State :=
  (s.setSticky Sticky.reset).reply (mgmtReply seq Request.status.code .ok s.statusData)

/-- NOTICE_FETCH: the oldest notice is removed and returned, or EMPTY (R169). -/
def State.serveNoticeFetch (seq : Byte) (_ : List Byte) (s : State) : State :=
  match s.notices with
  | [] => s.answer .noticeFetch seq .empty []
  | n :: rest => (s.setNotices rest).answer .noticeFetch seq .ok (n.data rest.length)

/-- What RACK_READ answers: an empty journal, the mode, the record, then the page (R25, R164, log entry 12). -/
def State.rackAnswer (s : State) (mode : Byte) (key : Half) (page : Byte) : Result × List Byte :=
  if s.journal.racks.isEmpty then (.badIndex, [])
  else if 1 < mode.toNat then (.badValue, [])
  else
    match s.rackIndex (mode = 1) key.toNat with
    | none => (.badIndex, [])
    | some k =>
      match s.journal.racks[k]? with
      | none => (.badIndex, [])
      | some r => if 5 < page.toNat then (.badValue, []) else (.ok, s.rackPage k r page.toNat)

/-- RACK_READ (R25). -/
def State.serveRackRead (seq : Byte) (args : List Byte) (s : State) : State :=
  let a := s.rackAnswer (args.getD 0 0) (half (args.getD 1 0) (args.getD 2 0)) (args.getD 3 0)
  s.answer .rackRead seq a.1 a.2

/-- LATCH_READ (R78). -/
def State.serveLatchRead (seq : Byte) (args : List Byte) (s : State) : State :=
  let c := (args.getD 0 0).toNat
  if c < Config.classes then s.answer .latchRead seq .ok (s.latchData c) else s.answer .latchRead seq .badIndex []

/-- CHANNEL_READ (R58). -/
def State.serveChannelRead (seq : Byte) (args : List Byte) (s : State) : State :=
  let i := (args.getD 0 0).toNat
  match s.routeAt i with
  | some r => s.answer .channelRead seq .ok (s.channelData i r)
  | none => s.answer .channelRead seq .badIndex []

/-- What TABLE_READ answers in the entry view, the part being one the table accepts (R161). -/
def State.entryAnswer (s : State) (t : TableId) (i step part : Nat) : Result × List Byte :=
  match s.tableData t i step part with
  | some d => (.ok, d)
  | none => (.empty, [])

/-- What TABLE_READ answers in the RUN view of a signature (R161). -/
def State.runAnswer (s : State) (g : Nat) : Result × List Byte :=
  if (s.sigAt g).isSome then (.ok, (s.runAt g).data) else (.empty, [])

/-- What TABLE_READ answers (R161, R164). The rules give BAD_INDEX and BAD_VALUE no order: the index rules come first, then the
part and the view, then the entry (DESIGN CHOICE, log entry 33). -/
def State.tableAnswer (s : State) (tb idx step : Byte) : Result × List Byte :=
  match TableId.ofCode (tableNibble tb) with
  | none => (.badIndex, [])
  | some t =>
    if !t.indexOk idx.toNat (some step) then (.badIndex, [])
    else if tableBit3 tb || !readsPart t (tablePart tb) || (tableRun tb && t ≠ .signature) then (.badValue, [])
    else if tableRun tb then s.runAnswer idx.toNat
    else s.entryAnswer t idx.toNat step.toNat (tablePart tb)

/-- TABLE_READ in either view (R161). -/
def State.serveTableRead (seq : Byte) (args : List Byte) (s : State) : State :=
  let a := s.tableAnswer (args.getD 0 0) (args.getD 1 0) (args.getD 2 0)
  s.answer .tableRead seq a.1 a.2

/-- LEVEL_READ: the depth, then the page (R108, R164, log entry 12). -/
def State.serveLevelRead (seq : Byte) (args : List Byte) (s : State) : State :=
  let d := (args.getD 0 0).toNat
  let p := (args.getD 1 0).toNat
  match s.levels[d]? with
  | none => s.answer .levelRead seq .badIndex []
  | some l => if 11 < p then s.answer .levelRead seq .badValue [] else s.answer .levelRead seq .ok (s.levelPage d l p)

/-- SEQ_LOCK (R145). -/
def State.serveSeqLock (seq : Byte) (_ : List Byte) (s : State) : State :=
  (s.setLock (some (s.now + Config.lockUnits))).answer .seqLock seq .ok []

/-- SEQ_UNLOCK (R145). -/
def State.serveSeqUnlock (seq : Byte) (_ : List Byte) (s : State) : State :=
  (s.setLock none).answer .seqUnlock seq .ok []

/-! ### Guarded requests -/

/-- TABLE_WRITE (R159, R160). -/
def State.serveTableWrite (seq : Byte) (args : List Byte) (s : State) : State :=
  let r := s.writeTable (args.getD 0 0) (args.getD 1 0) (args.drop 2)
  r.2.answer .tableWrite seq r.1 []

/-- ARM (R154). The check begins when the last character of its reply has been sent. -/
def State.serveArm (seq : Byte) (_ : List Byte) (s : State) : State :=
  if s.engine = .config then (((s.setStaging none).setEngine .checking).setCheck none).answer .arm seq .accepted []
  else s.answer .arm seq .wrongState []

/-- An actuator channel's owner is RETAINED (R157). -/
def State.anyRetained (s : State) : Bool := !(s.ownedBy .retained).isEmpty

/-- The journal is emptied, its records and its overflow-in-progress; L, next tag and the eyes are kept (R26). -/
def State.emptyJournal (s : State) : State := s.setJournal { s.journal with racks := [], overflow := false }

/-- DISARM is accepted (R26, R157). -/
def State.disarmed (s : State) : State :=
  (((s.emptyJournal).notify .journalDropped (word s.journal.racks.length) noneHalf noneHalf).setEngine
    .config).syncSilence

/-- DISARM (R157). -/
def State.serveDisarm (seq : Byte) (_ : List Byte) (s : State) : State :=
  if s.engine ≠ .armed then s.answer .disarm seq .wrongState []
  else if !s.levels.isEmpty || s.anyRetained then s.answer .disarm seq .planActive []
  else s.disarmed.answer .disarm seq .ok []

/-- PARK is accepted (R174). -/
def State.parked (traffic : Bool) (s : State) : State :=
  let s1 := ((s.setTraffic traffic).setEngine .watch).syncSilence
  s1.setWatch s1.nextWatch

/-- PARK (R174). -/
def State.servePark (seq : Byte) (args : List Byte) (s : State) : State :=
  if s.engine ≠ .armed then s.answer .park seq .wrongState []
  else if !s.journal.racks.isEmpty || !s.levels.isEmpty then s.answer .park seq .notIdle []
  else (s.parked ((args.getD 0 0).getLsbD 0)).answer .park seq .ok []

/-- WAKE (R177). -/
def State.serveWake (seq : Byte) (_ : List Byte) (s : State) : State :=
  if s.engine = .watch then (s.endWatch .request none).answer .wake seq .ok []
  else s.answer .wake seq .wrongState []

/-- FAULT_CLEAR (R76). -/
def State.serveFaultClear (seq : Byte) (args : List Byte) (s : State) : State :=
  let c := (args.getD 0 0).toNat
  if c < Config.classes then
    if (s.latchAt c).settled then (s.clearLatch c).answer .faultClear seq .ok []
    else s.answer .faultClear seq .notSettled []
  else s.answer .faultClear seq .badIndex []

/-- CONTAIN_CLEAR (R82). -/
def State.serveContainClear (seq : Byte) (_ : List Byte) (s : State) : State :=
  if s.contain.engaged then
    if s.classMatches (fun c => c ≤ 2) then s.answer .containClear seq .stillMatching []
    else s.disengage.answer .containClear seq .ok []
  else s.answer .containClear seq .ok []

/-- RETAIN_RELEASE (R106). -/
def State.serveRetainRelease (seq : Byte) (_ : List Byte) (s : State) : State :=
  s.releaseRetained.answer .retainRelease seq .ok []

/-- MASK_SET (R129). -/
def State.serveMaskSet (seq : Byte) (args : List Byte) (s : State) : State :=
  (s.setMasks (args.getD 0 0) (args.getD 1 0)).answer .maskSet seq .ok []

/-! ### SOFT_RESET (R158) -/

/-- A frame that SOFT_RESET removes from the queue: plan orders, replays and hand-back orders (R144). -/
def softRemoved (q : QFrame) : Bool :=
  match q.origin with
  | .plan _ _ _ => true
  | .planOrphan _ => true
  | .replay _ => true
  | .handBack _ => true
  | _ => false

/-- A plan order on the line belongs to no level from now on (R109, R148). -/
def State.orphanLine (s : State) : State :=
  match s.ports.trans with
  | some t =>
    match t.origin with
    | .plan _ _ i => s.setTrans (some { t with origin := .planOrphan i })
    | _ => s
  | none => s

/-- Step 1: the engine and the time base (R158). -/
def State.softStop (s : State) : State := (((s.setEngine .config).setCheck none).setSilence none).setWatch none

/-- Step 2, the latches, levels and gate (R73, R109, R128, R144, R145, R148). -/
def State.softOrders (s : State) : State :=
  let s1 := { s.orphanLine with latches := Vector.replicate 12 Latch.reset, levels := [] }
  { s1 with
    gate := { s1.gate with
      cells := s1.gate.cells.map fun c => { c with owner := .controller, held := .empty, handBack := none }
      lock := none }
    arbiter := { s1.arbiter with queue := s1.arbiter.queue.filter fun q => !softRemoved q, room := [] } }

/-- Step 2, the journal, image, monitor, ports and responder (R26, R59, R63, R122, R127, R150). -/
def State.softViews (s : State) : State :=
  { s.emptyJournal with
    image := s.image.map fun c => { ImageCell.reset with keepPending := c.keepPending }
    monitor := Vector.replicate 48 SigRun.reset
    ports := { s.ports with misses := Vector.replicate 61 0, sticky := Sticky.reset }
    mgmt := { s.mgmt with staging := none, prefixArmed := false } }

/-- SOFT_RESET's steps 1 to 3 (R158). -/
def State.softReset (s : State) : State :=
  ((s.softStop.softOrders.softViews).setNotices []).notify .restarted (word s.engine.code) noneHalf noneHalf

/-- SOFT_RESET (R158). -/
def State.serveSoftReset (seq : Byte) (_ : List Byte) (s : State) : State :=
  s.softReset.answer .softReset seq .ok []

/-! ### Which rule serves a request -/

/-- Each request is served by its own rule (R152). -/
def State.serve (r : Request) (seq : Byte) (args : List Byte) (s : State) : State :=
  match r with
  | .status => s.serveStatus seq args
  | .noticeFetch => s.serveNoticeFetch seq args
  | .rackRead => s.serveRackRead seq args
  | .latchRead => s.serveLatchRead seq args
  | .channelRead => s.serveChannelRead seq args
  | .tableRead => s.serveTableRead seq args
  | .levelRead => s.serveLevelRead seq args
  | .seqLock => s.serveSeqLock seq args
  | .seqUnlock => s.serveSeqUnlock seq args
  | .tableWrite => s.serveTableWrite seq args
  | .arm => s.serveArm seq args
  | .disarm => s.serveDisarm seq args
  | .park => s.servePark seq args
  | .wake => s.serveWake seq args
  | .faultClear => s.serveFaultClear seq args
  | .containClear => s.serveContainClear seq args
  | .retainRelease => s.serveRetainRelease seq args
  | .maskSet => s.serveMaskSet seq args
  | .softReset => s.serveSoftReset seq args

end Sys2Proof.Machine
end

