-- ==== Sys2Proof/Machine/Router.lean ====
section
/-! DEFINITION. The frame router: which C-port frames are accepted, what acceptance does, how an accepted frame is
classified and handed on, the tests every management request passes, and PHASE (R110 to R113, R116, R125, R151, R152). -/

namespace Sys2Proof.Machine

/-! ### The frames of the typed commands -/

/-- A frame of the cycle controller. -/
def ctlFrame (dst : Byte) (kind : BitVec 4) (seq : Byte) (payload : List Byte) : Sys2Proof.Frame :=
  { dst := dst, src := Config.controllerAddress, kind := kind, seq := seq, payload := payload }

/-- The frame of a CONTROLLER_ORDER. -/
def orderFrame (node chan : Byte) (value : Half) (seq : Byte) : Sys2Proof.Frame :=
  ctlFrame node Kind.order seq (orderPayload chan value)

/-- The frame of a CONTROLLER_POLL. -/
def pollFrame (node chan seq : Byte) : Sys2Proof.Frame := ctlFrame node Kind.poll seq [chan]

/-- The frame of a management request. -/
def requestFrame (r : Request) (seq : Byte) (args : List Byte) : Sys2Proof.Frame :=
  ctlFrame Config.partAddress Kind.mgmtReq seq (r.code :: args)

/-! ### Acceptance (R112) -/

/-- A node's address, 1 to 60 (R1). -/
def isNode (a : Byte) : Bool := 1 ≤ a.toNat && a.toNat ≤ 60

/-- The frame's addresses and kind are those of a frame that can be accepted (R112). -/
def acceptable (f : Sys2Proof.Frame) : Bool :=
  f.src = Config.controllerAddress &&
    (((isNode f.dst || f.dst = Config.partAddress) && f.kind ≠ Kind.phase) ||
      (f.dst = Config.broadcastAddress && f.kind = Kind.phase))

/-- No controller transaction is open (R112). -/
def State.cIdle (s : State) : Bool := s.ports.cport = .idle

/-- What acceptance does before the frame is classified: the controller transaction opens, but for PHASE; the silence
timer restarts if it runs; a prefix that stands armed is consumed (R112). -/
def State.accept (f : Sys2Proof.Frame) (s : State) : State :=
  ((if f.kind = Kind.phase then s else s.setCPort .waiting).restartSilence).setPrefix false

/-- A frame received whole on the C-port: malformed, it sets BAD_C; while a transaction is open, OVERRUN; not acceptable,
it is discarded; otherwise it is accepted and handled. `handle` is told whether a prefix stood armed (R110, R112, R151). -/
def State.onCPort (f : Sys2Proof.Frame) (handle : Bool → State → State) (s : State) : State :=
  if f.malformed then s.setBadC
  else if !s.cIdle then s.setOverrun
  else if !acceptable f then s
  else handle s.mgmt.prefixArmed (s.accept f)

/-! ### Traffic for nodes (R113, R116, R177) -/

/-- A transparent frame waits for the N-side (R113, R116). -/
def State.passOver (f : Sys2Proof.Frame) (s : State) : State := s.setWaiting (some { req := f, kind := .transparent })

/-- An accepted ORDER to a node first ends WATCH when wake-on-traffic was chosen (R130, R177). -/
def State.wakeOnOrder (s : State) : State :=
  if s.engine = .watch ∧ s.time.wakeOnTraffic = true then s.endWatch .traffic none else s

/-- An accepted ORDER is gated when its LEN is 3 and its pair is that of an actuator entry, else transparent (R113). -/
def State.handleOrder (f : Sys2Proof.Frame) (s : State) : State :=
  let s1 := s.wakeOnOrder
  if f.payload.length = 3 then
    match s1.findRoute f.dst f.chan with
    | some (i, r) => if r.kind.isActuator then s1.decideOrder i r f else s1.passOver f
    | none => s1.passOver f
  else s1.passOver f

/-- An accepted POLL is routed when its LEN is 1 and its pair is that of a present entry, else transparent (R113). -/
def State.handlePoll (f : Sys2Proof.Frame) (s : State) : State :=
  if f.payload.length = 1 then
    match s.findRoute f.dst f.chan with
    | some (i, _) => s.decidePoll i f
    | none => s.passOver f
  else s.passOver f

/-- An accepted frame to a node (R113). -/
def State.handleNode (f : Sys2Proof.Frame) (s : State) : State :=
  if f.kind = Kind.order then s.handleOrder f
  else if f.kind = Kind.poll then s.handlePoll f
  else s.passOver f

/-! ### PHASE (R125) -/

/-- The tracked phase takes the frame's value, or BAD_PHASE is set (R125). -/
def State.trackPhase (payload : List Byte) (s : State) : State :=
  match payload with
  | [p] =>
    match Phase.ofCode p.toNat with
    | some ph => if s.ports.phase = ph then s else (s.setPhase ph).syncSilence
    | none => s.setBadPhase
  | _ => s.setBadPhase

/-- The broadcast joins the injected-frame queue when it has room, with the controller's SEQ and its flags clear (R111,
R125). -/
def State.forwardPhase (f : Sys2Proof.Frame) (s : State) : State :=
  if s.queueHasRoom then s.appendFrame { f with flags := {} } .phase else s

/-- An accepted PHASE frame (R125). -/
def State.handlePhase (f : Sys2Proof.Frame) (s : State) : State := (s.trackPhase f.payload).forwardPhase f

/-! ### Frames to address 62 (R113, R151, R152) -/

/-- A PREFIX sets prefix-armed and is answered OK with code echo 0 (R151). -/
def State.handlePrefix (f : Sys2Proof.Frame) (s : State) : State := (s.setPrefix true).mgmtAnswer f.seq 0 .ok []

/-- The reply UNKNOWN with a code echo (R113, R152). -/
def State.answerUnknown (seq echo : Byte) (s : State) : State := s.mgmtAnswer seq echo .unknown []

/-- The tests of R152 from NOT_PREFIXED on, then the request's own rule. -/
def State.handleRequest (r : Request) (seq : Byte) (args : List Byte) (serve : State → State) (armed : Bool)
    (s : State) : State :=
  if r.guarded && !armed then s.answer r seq .notPrefixed []
  else if r.guarded && s.engine = .checking && r ≠ .softReset then s.answer r seq .busy []
  else if args.length < r.minArgs args then s.answer r seq .badValue []
  else serve s

/-- An accepted MGMT_REQ (R152). -/
def State.handleMgmt (f : Sys2Proof.Frame) (armed : Bool) (s : State) : State :=
  match f.payload with
  | [] => s.answerUnknown f.seq 0
  | code :: args =>
    match Request.ofCode code.toNat with
    | none => s.answerUnknown f.seq code
    | some r => s.handleRequest r f.seq args (fun s => s.serve r f.seq args) armed

/-- An accepted frame to address 62 (R113). -/
def State.handlePart (f : Sys2Proof.Frame) (armed : Bool) (s : State) : State :=
  if f.kind = Kind.prefixKind then s.handlePrefix f
  else if f.kind = Kind.mgmtReq then s.handleMgmt f armed
  else s.answerUnknown f.seq 0

/-- Classification by DST and KIND (R113). -/
def State.classify (f : Sys2Proof.Frame) (armed : Bool) (s : State) : State :=
  if f.dst = Config.broadcastAddress then s.handlePhase f
  else if f.dst = Config.partAddress then s.handlePart f armed
  else s.handleNode f

/-- A frame received whole on the C-port, of any kind (R110 to R113). -/
def State.receiveC (f : Sys2Proof.Frame) (s : State) : State := s.onCPort f fun armed s => s.classify f armed

/-- A management request received whole on the C-port, served by the given rule. -/
def State.request (r : Request) (serve : Byte → List Byte → State → State) (seq : Byte) (args : List Byte)
    (s : State) : State :=
  s.onCPort (requestFrame r seq args) fun armed s => s.handleRequest r seq args (serve seq args) armed

end Sys2Proof.Machine
end

