-- ==== Sys2Proof/Machine/Management.lean ====
section
/-! DEFINITION. The meanings of the commands that are frames to address 62: PREFIX, the requests of R164, and frames the
responder does not know (R151 to R153). -/

namespace Sys2Proof.Machine

/-- PREFIX (R151). -/
def execPrefixFrame (seq : Byte) (payload : List Byte) (s : State) : Host.Outcome State Fault Refusal :=
  .next (s.receiveC (ctlFrame Config.partAddress Kind.prefixKind seq payload))

/-- MGMT_UNKNOWN (R113, R152). -/
def execMgmtUnknown (kind : BitVec 4) (seq : Byte) (payload : List Byte) (s : State) :
    Host.Outcome State Fault Refusal :=
  .next (s.receiveC (ctlFrame Config.partAddress kind seq payload))

/-- STATUS (R170, R171). -/
def execStatus (seq : Byte) (args : List Byte) (s : State) : Host.Outcome State Fault Refusal :=
  .next (s.request .status State.serveStatus seq args)

/-- NOTICE_FETCH (R169). -/
def execNoticeFetch (seq : Byte) (args : List Byte) (s : State) : Host.Outcome State Fault Refusal :=
  .next (s.request .noticeFetch State.serveNoticeFetch seq args)

/-- RACK_READ (R25). -/
def execRackRead (seq : Byte) (args : List Byte) (s : State) : Host.Outcome State Fault Refusal :=
  .next (s.request .rackRead State.serveRackRead seq args)

/-- LATCH_READ (R78). -/
def execLatchRead (seq : Byte) (args : List Byte) (s : State) : Host.Outcome State Fault Refusal :=
  .next (s.request .latchRead State.serveLatchRead seq args)

/-- CHANNEL_READ (R58). -/
def execChannelRead (seq : Byte) (args : List Byte) (s : State) : Host.Outcome State Fault Refusal :=
  .next (s.request .channelRead State.serveChannelRead seq args)

/-- TABLE_READ in the entry view (R161). -/
def execTableRead (seq : Byte) (args : List Byte) (s : State) : Host.Outcome State Fault Refusal :=
  .next (s.request .tableRead State.serveTableRead seq args)

/-- TABLE_READ in the RUN view (R161). -/
def execTableReadRun (seq : Byte) (args : List Byte) (s : State) : Host.Outcome State Fault Refusal :=
  .next (s.request .tableRead State.serveTableRead seq args)

/-- LEVEL_READ (R108). -/
def execLevelRead (seq : Byte) (args : List Byte) (s : State) : Host.Outcome State Fault Refusal :=
  .next (s.request .levelRead State.serveLevelRead seq args)

/-- SEQ_LOCK (R145). -/
def execSeqLock (seq : Byte) (args : List Byte) (s : State) : Host.Outcome State Fault Refusal :=
  .next (s.request .seqLock State.serveSeqLock seq args)

/-- SEQ_UNLOCK (R145). -/
def execSeqUnlock (seq : Byte) (args : List Byte) (s : State) : Host.Outcome State Fault Refusal :=
  .next (s.request .seqUnlock State.serveSeqUnlock seq args)

/-- TABLE_WRITE of a SINGLE part (R159). -/
def execTableWrite (seq : Byte) (args : List Byte) (s : State) : Host.Outcome State Fault Refusal :=
  .next (s.request .tableWrite State.serveTableWrite seq args)

/-- TABLE_WRITE of a FIRST part (R160). -/
def execTableWriteFirst (seq : Byte) (args : List Byte) (s : State) : Host.Outcome State Fault Refusal :=
  .next (s.request .tableWrite State.serveTableWrite seq args)

/-- TABLE_WRITE of a LAST part (R160). -/
def execTableWriteLast (seq : Byte) (args : List Byte) (s : State) : Host.Outcome State Fault Refusal :=
  .next (s.request .tableWrite State.serveTableWrite seq args)

/-- ARM (R154). -/
def execArm (seq : Byte) (args : List Byte) (s : State) : Host.Outcome State Fault Refusal :=
  .next (s.request .arm State.serveArm seq args)

/-- DISARM (R157). -/
def execDisarm (seq : Byte) (args : List Byte) (s : State) : Host.Outcome State Fault Refusal :=
  .next (s.request .disarm State.serveDisarm seq args)

/-- PARK (R174). -/
def execPark (seq : Byte) (args : List Byte) (s : State) : Host.Outcome State Fault Refusal :=
  .next (s.request .park State.servePark seq args)

/-- WAKE (R177). -/
def execWake (seq : Byte) (args : List Byte) (s : State) : Host.Outcome State Fault Refusal :=
  .next (s.request .wake State.serveWake seq args)

/-- FAULT_CLEAR (R76). -/
def execFaultClear (seq : Byte) (args : List Byte) (s : State) : Host.Outcome State Fault Refusal :=
  .next (s.request .faultClear State.serveFaultClear seq args)

/-- CONTAIN_CLEAR (R82). -/
def execContainClear (seq : Byte) (args : List Byte) (s : State) : Host.Outcome State Fault Refusal :=
  .next (s.request .containClear State.serveContainClear seq args)

/-- RETAIN_RELEASE (R106). -/
def execRetainRelease (seq : Byte) (args : List Byte) (s : State) : Host.Outcome State Fault Refusal :=
  .next (s.request .retainRelease State.serveRetainRelease seq args)

/-- MASK_SET (R129). -/
def execMaskSet (seq : Byte) (args : List Byte) (s : State) : Host.Outcome State Fault Refusal :=
  .next (s.request .maskSet State.serveMaskSet seq args)

/-- SOFT_RESET (R158). -/
def execSoftReset (seq : Byte) (args : List Byte) (s : State) : Host.Outcome State Fault Refusal :=
  .next (s.request .softReset State.serveSoftReset seq args)

end Sys2Proof.Machine
end

