-- ==== Sys2Proof/Machine/NodeSide.lean ====
section
/-! DEFINITION. The meanings of the events of the ports and the arbiter: the ends of what the part sends, frames on the
N-port, misses, the arbiter's choice and the room list (R114, R120 to R124, R143, R146, R154). -/

namespace Sys2Proof.Machine

/-- The table check begins when the last character of ARM's reply has been sent (R154). -/
def State.beginCheck (s : State) : State :=
  if s.engine = .checking ∧ s.mgmt.checkBegan = none then s.setCheck (some s.now) else s

/-- The controller transaction closes when its reply's last character has been sent (R114). -/
def State.replyEnded (s : State) : State :=
  match s.ports.cport with
  | .replying _ => (s.setCPort .idle).beginCheck
  | _ => s

/-- REPLY_SENT (R114, R154). While no reply is being sent there is nothing to end. -/
def execReplySent (s : State) : Host.Outcome State Fault Refusal := .next s.replyEnded

/-- N_SEND_END (R120). -/
def execNSendEnd (s : State) : Host.Outcome State Fault Refusal := .next s.sendEnded

/-- NODE_REPLY (R120, R123). Whether the frame is the open transaction's reply follows from the state. -/
def execNodeReply (f : Sys2Proof.Frame) (s : State) : Host.Outcome State Fault Refusal := .next (s.receiveN f)

/-- MISS: the reply timeout expires, or a frame that began to arrive before the expiry ends after it (R120, R124). -/
def execMiss (late : Option Sys2Proof.Frame) (s : State) : Host.Outcome State Fault Refusal :=
  match late with
  | none => .next s.timeoutExpires
  | some f => .next (s.lateFrame f)

/-- STRAY (R121). -/
def execStray (f : Sys2Proof.Frame) (s : State) : Host.Outcome State Fault Refusal := .next (s.receiveN f)

/-- ARBITER_CHOICE (R146). -/
def execArbiterChoice (s : State) : Host.Outcome State Fault Refusal := .next s.arbitrate

/-- ROOM_LIST_APPEND (R143). -/
def execRoomListAppend (s : State) : Host.Outcome State Fault Refusal := .next s.fillRoom

/-- REPLY_BEGINS_TO_ARRIVE (R120). -/
def execReplyBeginsToArrive (s : State) : Host.Outcome State Fault Refusal := .next s.replyBegins

end Sys2Proof.Machine
end

