-- ==== Sys2Proof/Machine/TableCheck.lean ====
section
/-! DEFINITION. The table check of R155: the conditions in its order, the first that fails, and the check detail that
names it. -/

namespace Sys2Proof.Machine

/-! ### Entries the check looks up -/

/-- The route entry of some tables at an index. -/
def Tables.routeAt (t : Tables) (i : Nat) : Option RouteEntry := (t.route[i]?).join
/-- The ZONE entry of some tables at an index. -/
def Tables.zoneAt (t : Tables) (z : Nat) : Option ZoneEntry := (t.zone[z]?).join
/-- The CURVE entry of some tables at an index. -/
def Tables.curveAt (t : Tables) (c : Nat) : Option CurveEntry := (t.curve[c]?).join

/-- The check detail of a failed condition (R155). -/
def failAt (table : TableId) (index sub : Nat) (r : CheckReason) : CheckDetail :=
  { table := table.code, index := index, sub := sub, reason := r }

/-- A condition: `none` while it holds, else the detail. -/
def require (ok : Bool) (d : CheckDetail) : Option CheckDetail := if ok then none else some d

/-- A ref names a present route entry, else ABSENT_REF, of a kind that `p` admits, else WRONG_KIND (R155). -/
def Tables.checkRef (t : Tables) (i : Nat) (p : RouteKind → Bool) (d : CheckReason → CheckDetail) :
    Option CheckDetail :=
  match t.routeAt i with
  | none => some (d .absentRef)
  | some r => require (p r.kind) (d .wrongKind)

/-- A ref that may be none: examined where it is not none (R155). -/
def Tables.checkOptRef (t : Tables) (i : Option Nat) (p : RouteKind → Bool) (d : CheckReason → CheckDetail) :
    Option CheckDetail :=
  match i with
  | none => none
  | some i => t.checkRef i p d

/-- The first of a list of conditions that fails. -/
def firstFailure (l : List (Option CheckDetail)) : Option CheckDetail := l.findSome? id

/-! ### LINE and ROUTE -/

/-- The LINE record (R119, R155). -/
def Tables.checkLine (t : Tables) : Option CheckDetail :=
  match t.line with
  | none => some (failAt .line 0 0 .lineUnwritten)
  | some l =>
    firstFailure
      [t.checkRef l.entryEye (· = .eyeEntry) (failAt .line 0 1),
       t.checkRef l.exitEye (· = .eyeExit) (failAt .line 0 2),
       t.checkRef l.advance (· = .advance) (failAt .line 0 3),
       t.checkOptRef l.conveyor (· = .conveyor) (failAt .line 0 4),
       t.checkOptRef l.indicator (· = .indicator) (failAt .line 0 5),
       require (l.maxLength < l.exitPos) (failAt .line 0 0 .exitShort)]

/-- The route indices of the HEATER entries, ascending. -/
def Tables.heaters (t : Tables) : List Nat :=
  (List.range Config.routes).filter fun i =>
    match t.routeAt i with
    | some r => r.kind = .heater
    | none => false

/-- At most 8 entries of kind HEATER; the ninth is named (R119, R155). -/
def Tables.checkHeaters (t : Tables) : Option CheckDetail :=
  (t.heaters[Config.maxHeaters]?).map fun i => failAt .route i 0 .heaterCount

/-! ### ZONE -/

/-- Two spans overlap (R31). -/
def ZoneEntry.overlaps (a b : ZoneEntry) : Bool := a.start < b.stop && b.start < a.stop

/-- The lowest lower-indexed zone of kind other than NONE that the entry overlaps. The rule says only "the lower zone" of the
sub-index: where an entry overlaps several, the lowest is named (R155; DESIGN CHOICE, log entry 29). -/
def Tables.overlapped (t : Tables) (z : Nat) (e : ZoneEntry) : Option Nat :=
  (List.range z).find? fun y =>
    match t.zoneAt y with
    | some o => o.kind ≠ .none && e.overlaps o
    | none => false

/-- A ref that the zone requires is not none (R155). -/
def checkNeeded (needed : Bool) (ref : Option Nat) (d : CheckReason → CheckDetail) : Option CheckDetail :=
  require (!needed || ref.isSome) (d .missingRef)

/-- A curve that the zone requires is present (R155). -/
def Tables.checkCurve (t : Tables) (needed : Bool) (c : Nat) (d : CheckReason → CheckDetail) : Option CheckDetail :=
  require (!needed || (t.curveAt c).isSome) (d .absentRef)

/-- A ZONE entry of kind other than NONE, clause by clause in the order of its rows, and field by field within a clause
(R31, R155, log entry 14). -/
def Tables.checkZone (t : Tables) (z : Nat) (e : ZoneEntry) : Option CheckDetail :=
  let heat := decide (0 < e.heatTarget)
  let act := decide (0 < e.actTarget)
  firstFailure
    [require (e.start < e.stop && e.stop ≤ Config.machineLength) (failAt .zone z 0 .span),
     (t.overlapped z e).map fun y => failAt .zone z y .overlap,
     t.line.bind fun l => require (e.stop ≤ l.exitPos) (failAt .zone z 0 .exitShort),
     checkNeeded heat e.temp (failAt .zone z 1),
     checkNeeded act e.press (failAt .zone z 2),
     t.checkOptRef e.temp (· = .temp) (failAt .zone z 1),
     t.checkOptRef e.press (· = .pressure) (failAt .zone z 2),
     t.checkOptRef e.level (· = .level) (failAt .zone z 3),
     t.checkOptRef e.heater (· = .heater) (failAt .zone z 4),
     t.checkOptRef e.pump (· = .pump) (failAt .zone z 5),
     t.checkOptRef e.inlet (· = .inlet) (failAt .zone z 6),
     t.checkOptRef e.drain (· = .drain) (failAt .zone z 7),
     t.checkCurve heat e.heatCurve (failAt .zone z 8),
     t.checkCurve act e.actCurve (failAt .zone z 9)]

/-- The ZONE table; absent entries and entries of kind NONE are not examined (R155). -/
def Tables.checkZones (t : Tables) : Option CheckDetail :=
  (List.range Config.zones).findSome? fun z =>
    match t.zoneAt z with
    | some e => if e.kind = .none then none else t.checkZone z e
    | none => none

/-! ### SIGNATURE -/

/-- A gate condition that the gate count uses names a present actuator entry (R155). -/
def Tables.checkGate (t : Tables) (used : Bool) (g : GateCond) (d : CheckReason → CheckDetail) : Option CheckDetail :=
  if used then t.checkRef g.ref RouteKind.isActuator d else none

/-- Channel B of a DIFF_ABOVE signature (R155). -/
def Tables.checkChB (t : Tables) (e : SigEntry) (d : CheckReason → CheckDetail) : Option CheckDetail :=
  if e.test = .diffAbove then
    match e.chB with
    | none => some (d .missingRef)
    | some b => t.checkRef b RouteKind.isSensor d
  else none

/-- The zone of a signature names a present ZONE entry (R155). -/
def Tables.checkSigZone (t : Tables) (e : SigEntry) (d : CheckReason → CheckDetail) : Option CheckDetail :=
  match e.zone with
  | none => none
  | some z => require (t.zoneAt z).isSome (d .absentRef)

/-- A SIGNATURE entry (R62, R155). -/
def Tables.checkSignature (t : Tables) (g : Nat) (e : SigEntry) : Option CheckDetail :=
  firstFailure
    [require (e.cls ≤ 8) (failAt .signature g 0 .classRange),
     t.checkRef e.chA RouteKind.isSensor (failAt .signature g 1),
     t.checkChB e (failAt .signature g 2),
     t.checkGate (1 ≤ e.gateCount) e.gate1 (failAt .signature g 3),
     t.checkGate (2 ≤ e.gateCount) e.gate2 (failAt .signature g 4),
     t.checkSigZone e (failAt .signature g 5)]

/-- The SIGNATURE table. -/
def Tables.checkSignatures (t : Tables) : Option CheckDetail :=
  (List.range Config.signatures).findSome? fun g =>
    match (t.signature[g]?).join with
    | some e => t.checkSignature g e
    | none => none

/-! ### PLAN -/

/-- SET and RELEASE name a present actuator entry, WAIT_FOR a present sensor entry (R155). -/
def Tables.checkStepRef (t : Tables) (p : PlanSlot) (d : CheckReason → CheckDetail) : Option CheckDetail :=
  match p.kind with
  | .set | .release => t.checkRef p.subject.toNat RouteKind.isActuator d
  | .waitFor => t.checkRef (waitRef p.subject) RouteKind.isSensor d
  | _ => none

/-- The valve ref that a DRAIN or REFILL step needs (R155). -/
def ZoneEntry.stepValve (z : ZoneEntry) (k : StepKind) : Option Nat := if k = .refill then z.inlet else z.drain

/-- DRAIN and REFILL name a zone with the refs they need (R155). -/
def Tables.checkTankStep (t : Tables) (p : PlanSlot) (d : CheckReason → CheckDetail) : Option CheckDetail :=
  if p.kind = .drain ∨ p.kind = .refill then
    match t.zoneAt p.subject.toNat with
    | none => some (d .absentRef)
    | some z =>
      if z.kind = .none then some (d .absentRef)
      else require (z.level.isSome && (z.stepValve p.kind).isSome) (d .missingRef)
  else none

/-- The LINE record names a conveyor speed channel. -/
def Tables.hasConveyor (t : Tables) : Bool :=
  match t.line with
  | some l => l.conveyor.isSome
  | none => false

/-- A PLAN step slot (R86, R155). -/
def Tables.checkStep (t : Tables) (plan step : Nat) (p : PlanSlot) : Option CheckDetail :=
  let d := failAt .plan plan step
  firstFailure
    [require (match p.failTarget with | none => true | some f => decide (step < f)) (d .failTarget),
     t.checkStepRef p d,
     t.checkTankStep p d,
     require (p.kind ≠ .mark || p.subject.toNat ≤ p.value.toNat) (d .markOrder),
     require (!p.kind.isConveyor || t.hasConveyor) (d .missingRef)]

/-- The slot of a plan and step in some tables. -/
def Tables.slotAt (t : Tables) (plan step : Nat) : Option PlanSlot := (t.plan[Config.steps * plan + step]?).join

/-- The PLAN table, plan by plan and step by step. -/
def Tables.checkPlans (t : Tables) : Option CheckDetail :=
  (List.range Config.plans).findSome? fun plan =>
    (List.range Config.steps).findSome? fun step =>
      match t.slotAt plan step with
      | some p => t.checkStep plan step p
      | none => none

/-! ### SELECT -/

/-- A cell is NONE or names a plan whose step slot 0 is present (R87, R155). -/
def Tables.checkCell (t : Tables) (c : Nat) (ph : Phase) (cell : Option Nat) : Option CheckDetail :=
  match cell with
  | none => none
  | some p => require (t.slotAt p 0).isSome (failAt .select c ph.code .absentRef)

/-- A SELECT row, phase by phase. -/
def Tables.checkRow (t : Tables) (c : Nat) (r : SelectRow) : Option CheckDetail :=
  firstFailure
    ([Phase.standby, .fill, .heatUp, .production, .pause, .empty].map fun ph => t.checkCell c ph (r.cell ph))

/-- The SELECT table. -/
def Tables.checkSelects (t : Tables) : Option CheckDetail :=
  (List.range Config.classes).findSome? fun c =>
    match (t.select[c]?).join with
    | some r => t.checkRow c r
    | none => none

/-- The table check: the detail of the first condition that fails, none when all hold (R155). -/
def Tables.check (t : Tables) : Option CheckDetail :=
  firstFailure [t.checkLine, t.checkHeaters, t.checkZones, t.checkSignatures, t.checkPlans, t.checkSelects]

/-- The check detail after a pass: reason NONE with zeros (R156, R171). -/
def CheckDetail.pass : CheckDetail := { table := 0, index := 0, sub := 0, reason := .none }

end Sys2Proof.Machine
end

