-- ==== Sys2Proof/Machine/TimeEvents.lean ====
section
/-! DEFINITION. The meanings of the events of the time base and of the table check's completion. An event that is not due
leaves the state as it is (log entry 2) (R27, R50, R72, R101, R145, R156, R173, R176). -/

namespace Sys2Proof.Machine

/-- The age check, when the clock has brought it (R50, R173). -/
def State.takeAgeCheck (s : State) : State := if s.time.ageDue then (s.setAgeDue false).ageAll else s

/-- AGE_CHECK (R50). -/
def execAgeCheck (s : State) : Host.Outcome State Fault Refusal := .next s.takeAgeCheck

/-- The credit tick, when the clock has brought it in ARMED (R27, R173). -/
def State.takeCreditTick (s : State) : State :=
  if s.time.creditDue = true ∧ s.engine = .armed then (s.setCreditDue false).creditAll else s

/-- CREDIT_TICK (R27). -/
def execCreditTick (s : State) : Host.Outcome State Fault Refusal := .next s.takeCreditTick

/-- The watch interval, at the watch deadline in WATCH (R176). -/
def State.takeWatchInterval (s : State) : State :=
  if s.engine = .watch ∧ dueAt s.time.watchDeadline s.now = true then s.watchRound else s

/-- WATCH_INTERVAL (R176). -/
def execWatchInterval (s : State) : Host.Outcome State Fault Refusal := .next s.takeWatchInterval

/-- The silence timer's deadline, once reached (R72). -/
def State.takeSilenceExpiry (s : State) : State := if dueAt s.time.silence s.now then s.expireSilence else s

/-- SILENCE_EXPIRY (R72). -/
def execSilenceExpiry (s : State) : Host.Outcome State Fault Refusal := .next s.takeSilenceExpiry

/-- STEP_DEADLINE (R101 to R103). -/
def execStepDeadline (s : State) : Host.Outcome State Fault Refusal := .next s.deadlineReached

/-- The sequence lock's deadline, once reached (R145). -/
def State.takeLockExpiry (s : State) : State := if dueAt s.gate.lock s.now then s.setLock none else s

/-- SEQ_LOCK_EXPIRY (R145). -/
def execSeqLockExpiry (s : State) : Host.Outcome State Fault Refusal := .next s.takeLockExpiry

/-- The table check passes: the detail, CHECK_DONE, and the entry to ARMED (R156). -/
def State.checkPassed (s : State) : State :=
  (((((s.setCheck none).setDetail CheckDetail.pass).notify .checkDone 0 noneHalf noneHalf).setEngine
    .armed)).enterArmed

/-- The table check fails: the detail, CHECK_DONE, and the return to CONFIG (R156). -/
def State.checkFailed (d : CheckDetail) (s : State) : State :=
  (((s.setCheck none).setDetail d).notify .checkDone 1 (word d.table) (word d.index)).setEngine .config

/-- The running table check completes (R154 to R156). -/
def State.completeCheck (s : State) : State :=
  if s.engine = .checking ∧ s.mgmt.checkBegan.isSome = true then
    match s.tables.check with
    | none => s.checkPassed
    | some d => s.checkFailed d
  else s

/-- CHECK_COMPLETION (R156). -/
def execCheckCompletion (s : State) : Host.Outcome State Fault Refusal := .next s.completeCheck

/-- The line clock advances by one, wrapping, and brings the age check at a multiple of 10 and, in ARMED, the credit tick
at a multiple of 25 (R173). The wrap is no multiple of either, so the spacing is 6 and 21 units there: the multiples are
followed, not the sentence that the spacing holds across the wrap (DESIGN CHOICE, log entry 3). -/
def State.advanceClock (s : State) : State :=
  let t := s.now + 1
  ((s.setClock t).setAgeDue (s.time.ageDue || t.toNat % 10 = 0)).setCreditDue
    (s.time.creditDue || (s.engine = .armed && t.toNat % 25 = 0))

/-- LINE_CLOCK_ADVANCE (R173). -/
def execLineClockAdvance (s : State) : Host.Outcome State Fault Refusal := .next s.advanceClock

end Sys2Proof.Machine
end

