-- ==== Sys2Proof/Machine/Traffic.lean ====
section
/-! DEFINITION. The meanings of the commands that are controller traffic, and of RESET_N: frames received whole on the
C-port or, when malformed, on either port (R110, R112, R116, R125, R130, R135, R149). -/

namespace Sys2Proof.Machine

/-- RESET_N: every block takes its power-on values (R149). The queue of commands is the model's and is kept (log entry
1). -/
def execResetN (s : State) : Host.Outcome State Fault Refusal := .next { State.reset with pending := s.pending }

/-- Characters received on the C-port (R110). -/
def State.charsC (bytes : List Byte) (s : State) : State :=
  match parseFrame bytes with
  | none => s.setBadC
  | some f => s.receiveC f

/-- Characters received on the N-port (R110, R121). -/
def State.charsN (bytes : List Byte) (s : State) : State :=
  match parseFrame bytes with
  | none => s.setBadN.nonReplyEnded
  | some f => s.receiveN f

/-- MALFORMED_FRAME (R110). Characters that do spell a well-formed frame are taken as that frame. -/
def execMalformedFrame (port : Port) (bytes : List Byte) (s : State) : Host.Outcome State Fault Refusal :=
  match port with
  | .cPort => .next (s.charsC bytes)
  | .nPort => .next (s.charsN bytes)

/-- C_FRAME_DISCARD (R112). Whether the frame is discarded follows from the state. -/
def execCFrameDiscard (f : Sys2Proof.Frame) (s : State) : Host.Outcome State Fault Refusal := .next (s.receiveC f)

/-- CONTROLLER_ORDER (R112, R113, R130). -/
def execControllerOrder (node chan : Byte) (value : Half) (seq : Byte) (s : State) :
    Host.Outcome State Fault Refusal :=
  .next (s.receiveC (orderFrame node chan value seq))

/-- CONTROLLER_POLL (R112, R113, R135). -/
def execControllerPoll (node chan seq : Byte) (s : State) : Host.Outcome State Fault Refusal :=
  .next (s.receiveC (pollFrame node chan seq))

/-- TRANSPARENT_FRAME (R112, R113, R116). -/
def execTransparentFrame (f : Sys2Proof.Frame) (s : State) : Host.Outcome State Fault Refusal := .next (s.receiveC f)

/-- PHASE (R112, R125). -/
def execPhase (seq : Byte) (payload : List Byte) (s : State) : Host.Outcome State Fault Refusal :=
  .next (s.receiveC (ctlFrame Config.broadcastAddress Kind.phase seq payload))

end Sys2Proof.Machine
end

