-- ==== Sys2Proof/Machine/Dispatch.lean ====
section
/-! DEFINITION. The meaning of each command: one arm per row of spec/opcode_table.json, each a direct call. -/

namespace Sys2Proof.Machine

def exec (i : Instr) (s : State) : Host.Outcome State Fault Refusal :=
  match i with
  | .resetN => Sys2Proof.Machine.execResetN s
  | .malformedFrame port bytes => Sys2Proof.Machine.execMalformedFrame port bytes s
  | .cFrameDiscard f => Sys2Proof.Machine.execCFrameDiscard f s
  | .controllerOrder node chan value seq => Sys2Proof.Machine.execControllerOrder node chan value seq s
  | .controllerPoll node chan seq => Sys2Proof.Machine.execControllerPoll node chan seq s
  | .transparentFrame f => Sys2Proof.Machine.execTransparentFrame f s
  | .phase seq payload => Sys2Proof.Machine.execPhase seq payload s
  | .prefixFrame seq payload => Sys2Proof.Machine.execPrefixFrame seq payload s
  | .mgmtUnknown kind seq payload => Sys2Proof.Machine.execMgmtUnknown kind seq payload s
  | .status seq args => Sys2Proof.Machine.execStatus seq args s
  | .noticeFetch seq args => Sys2Proof.Machine.execNoticeFetch seq args s
  | .rackRead seq args => Sys2Proof.Machine.execRackRead seq args s
  | .latchRead seq args => Sys2Proof.Machine.execLatchRead seq args s
  | .channelRead seq args => Sys2Proof.Machine.execChannelRead seq args s
  | .tableRead seq args => Sys2Proof.Machine.execTableRead seq args s
  | .tableReadRun seq args => Sys2Proof.Machine.execTableReadRun seq args s
  | .levelRead seq args => Sys2Proof.Machine.execLevelRead seq args s
  | .seqLock seq args => Sys2Proof.Machine.execSeqLock seq args s
  | .seqUnlock seq args => Sys2Proof.Machine.execSeqUnlock seq args s
  | .tableWrite seq args => Sys2Proof.Machine.execTableWrite seq args s
  | .tableWriteFirst seq args => Sys2Proof.Machine.execTableWriteFirst seq args s
  | .tableWriteLast seq args => Sys2Proof.Machine.execTableWriteLast seq args s
  | .arm seq args => Sys2Proof.Machine.execArm seq args s
  | .disarm seq args => Sys2Proof.Machine.execDisarm seq args s
  | .park seq args => Sys2Proof.Machine.execPark seq args s
  | .wake seq args => Sys2Proof.Machine.execWake seq args s
  | .faultClear seq args => Sys2Proof.Machine.execFaultClear seq args s
  | .containClear seq args => Sys2Proof.Machine.execContainClear seq args s
  | .retainRelease seq args => Sys2Proof.Machine.execRetainRelease seq args s
  | .maskSet seq args => Sys2Proof.Machine.execMaskSet seq args s
  | .softReset seq args => Sys2Proof.Machine.execSoftReset seq args s
  | .replySent => Sys2Proof.Machine.execReplySent s
  | .nSendEnd => Sys2Proof.Machine.execNSendEnd s
  | .nodeReply f => Sys2Proof.Machine.execNodeReply f s
  | .miss late => Sys2Proof.Machine.execMiss late s
  | .stray f => Sys2Proof.Machine.execStray f s
  | .arbiterChoice => Sys2Proof.Machine.execArbiterChoice s
  | .roomListAppend => Sys2Proof.Machine.execRoomListAppend s
  | .ageCheck => Sys2Proof.Machine.execAgeCheck s
  | .creditTick => Sys2Proof.Machine.execCreditTick s
  | .watchInterval => Sys2Proof.Machine.execWatchInterval s
  | .silenceExpiry => Sys2Proof.Machine.execSilenceExpiry s
  | .stepDeadline => Sys2Proof.Machine.execStepDeadline s
  | .seqLockExpiry => Sys2Proof.Machine.execSeqLockExpiry s
  | .checkCompletion => Sys2Proof.Machine.execCheckCompletion s
  | .lineClockAdvance => Sys2Proof.Machine.execLineClockAdvance s
  | .replyBeginsToArrive => Sys2Proof.Machine.execReplyBeginsToArrive s

end Sys2Proof.Machine
end

