-- ==== Sys2Proof/WellFormed.lean ====
section
/-! DEFINITION. Which commands are well-formed: the operands that a row of the table admits (R1, R110, R163, R164). What a
command does is not limited by this: every meaning takes every operand. -/

namespace Sys2Proof

/-- The arguments of a management request fit in one frame beside the code (R110, R163). -/
def argsFit (args : List Byte) : Bool := args.length ≤ 15

/-- A payload fits in one frame (R110). -/
def payloadFits (p : List Byte) : Bool := p.length ≤ Config.maxPayload

/-- The table byte of a TABLE_READ or TABLE_WRITE, 0 where the arguments are empty. -/
def tableByte (args : List Byte) : Byte := args.getD 0 0

/-- A frame for a node from the cycle controller: a node's address, any kind but PHASE (R113). -/
def transparentOk (f : Frame) : Bool :=
  !f.malformed && f.src = Config.controllerAddress && Machine.isNode f.dst && f.kind ≠ Kind.phase

/-- A frame of the row MGMT_UNKNOWN: an unknown kind, or a MGMT_REQ with LEN 0 or an unknown code (R113, R152). -/
def unknownOk (kind : BitVec 4) (payload : List Byte) : Bool :=
  payloadFits payload && kind ≠ Kind.phase && kind ≠ Kind.prefixKind &&
    (kind ≠ Kind.mgmtReq ||
      match payload with
      | [] => true
      | code :: _ => (Machine.Request.ofCode code.toNat).isNone)

/-- A command is well-formed. -/
def Instr.wellFormed : Instr → Bool
  | .resetN => true
  | .malformedFrame _ bytes => (Machine.parseFrame bytes).isNone
  | .cFrameDiscard f => !f.malformed
  | .controllerOrder node _ _ _ => Machine.isNode node
  | .controllerPoll node _ _ => Machine.isNode node
  | .transparentFrame f => transparentOk f
  | .phase _ payload => payloadFits payload
  | .prefixFrame _ payload => payloadFits payload
  | .mgmtUnknown kind _ payload => unknownOk kind payload
  | .status _ args => argsFit args
  | .noticeFetch _ args => argsFit args
  | .rackRead _ args => argsFit args
  | .latchRead _ args => argsFit args
  | .channelRead _ args => argsFit args
  | .tableRead _ args => argsFit args && !Machine.tableRun (tableByte args)
  | .tableReadRun _ args => argsFit args && Machine.tableRun (tableByte args)
  | .levelRead _ args => argsFit args
  | .seqLock _ args => argsFit args
  | .seqUnlock _ args => argsFit args
  | .tableWrite _ args =>
    argsFit args && Machine.tablePart (tableByte args) ≠ 1 && Machine.tablePart (tableByte args) ≠ 2
  | .tableWriteFirst _ args => argsFit args && Machine.tablePart (tableByte args) = 1
  | .tableWriteLast _ args => argsFit args && Machine.tablePart (tableByte args) = 2
  | .arm _ args => argsFit args
  | .disarm _ args => argsFit args
  | .park _ args => argsFit args
  | .wake _ args => argsFit args
  | .faultClear _ args => argsFit args
  | .containClear _ args => argsFit args
  | .retainRelease _ args => argsFit args
  | .maskSet _ args => argsFit args
  | .softReset _ args => argsFit args
  | .replySent => true
  | .nSendEnd => true
  | .nodeReply f => !f.malformed
  | .miss _ => true
  | .stray f => !f.malformed
  | .arbiterChoice => true
  | .roomListAppend => true
  | .ageCheck => true
  | .creditTick => true
  | .watchInterval => true
  | .silenceExpiry => true
  | .stepDeadline => true
  | .seqLockExpiry => true
  | .checkCompletion => true
  | .lineClockAdvance => true
  | .replyBeginsToArrive => true

/-- The frame of the cycle controller that a command is, for the commands that are one (R113, R163). -/
def Instr.controllerFrame : Instr → Option Frame
  | .resetN => none
  | .malformedFrame _ _ => none
  | .cFrameDiscard f => some f
  | .controllerOrder node chan value seq => some (Machine.orderFrame node chan value seq)
  | .controllerPoll node chan seq => some (Machine.pollFrame node chan seq)
  | .transparentFrame f => some f
  | .phase seq payload => some (Machine.ctlFrame Config.broadcastAddress Kind.phase seq payload)
  | .prefixFrame seq payload => some (Machine.ctlFrame Config.partAddress Kind.prefixKind seq payload)
  | .mgmtUnknown kind seq payload => some (Machine.ctlFrame Config.partAddress kind seq payload)
  | .status seq args => some (Machine.requestFrame .status seq args)
  | .noticeFetch seq args => some (Machine.requestFrame .noticeFetch seq args)
  | .rackRead seq args => some (Machine.requestFrame .rackRead seq args)
  | .latchRead seq args => some (Machine.requestFrame .latchRead seq args)
  | .channelRead seq args => some (Machine.requestFrame .channelRead seq args)
  | .tableRead seq args => some (Machine.requestFrame .tableRead seq args)
  | .tableReadRun seq args => some (Machine.requestFrame .tableRead seq args)
  | .levelRead seq args => some (Machine.requestFrame .levelRead seq args)
  | .seqLock seq args => some (Machine.requestFrame .seqLock seq args)
  | .seqUnlock seq args => some (Machine.requestFrame .seqUnlock seq args)
  | .tableWrite seq args => some (Machine.requestFrame .tableWrite seq args)
  | .tableWriteFirst seq args => some (Machine.requestFrame .tableWrite seq args)
  | .tableWriteLast seq args => some (Machine.requestFrame .tableWrite seq args)
  | .arm seq args => some (Machine.requestFrame .arm seq args)
  | .disarm seq args => some (Machine.requestFrame .disarm seq args)
  | .park seq args => some (Machine.requestFrame .park seq args)
  | .wake seq args => some (Machine.requestFrame .wake seq args)
  | .faultClear seq args => some (Machine.requestFrame .faultClear seq args)
  | .containClear seq args => some (Machine.requestFrame .containClear seq args)
  | .retainRelease seq args => some (Machine.requestFrame .retainRelease seq args)
  | .maskSet seq args => some (Machine.requestFrame .maskSet seq args)
  | .softReset seq args => some (Machine.requestFrame .softReset seq args)
  | .replySent => none
  | .nSendEnd => none
  | .nodeReply _ => none
  | .miss _ => none
  | .stray _ => none
  | .arbiterChoice => none
  | .roomListAppend => none
  | .ageCheck => none
  | .creditTick => none
  | .watchInterval => none
  | .silenceExpiry => none
  | .stepDeadline => none
  | .seqLockExpiry => none
  | .checkCompletion => none
  | .lineClockAdvance => none
  | .replyBeginsToArrive => none

end Sys2Proof
end

