-- ==== Sys2Proof/Safety.lean ====
section
/-! DEFINITION. The terms the statements use: what acceptance of a frame leaves, when a request reaches its own rule, the
structural tables, how the room list fills, what placing a plan order and the failed end of a level leave, and the
invariants that every step keeps. -/

namespace Sys2Proof

/-- The management request that a command is, with its SEQ and arguments (R164). -/
def Instr.request : Instr → Option (Machine.Request × Byte × List Byte)
  | .resetN => none
  | .malformedFrame _ _ => none
  | .cFrameDiscard _ => none
  | .controllerOrder _ _ _ _ => none
  | .controllerPoll _ _ _ => none
  | .transparentFrame _ => none
  | .phase _ _ => none
  | .prefixFrame _ _ => none
  | .mgmtUnknown _ _ _ => none
  | .status seq args => some (.status, seq, args)
  | .noticeFetch seq args => some (.noticeFetch, seq, args)
  | .rackRead seq args => some (.rackRead, seq, args)
  | .latchRead seq args => some (.latchRead, seq, args)
  | .channelRead seq args => some (.channelRead, seq, args)
  | .tableRead seq args => some (.tableRead, seq, args)
  | .tableReadRun seq args => some (.tableRead, seq, args)
  | .levelRead seq args => some (.levelRead, seq, args)
  | .seqLock seq args => some (.seqLock, seq, args)
  | .seqUnlock seq args => some (.seqUnlock, seq, args)
  | .tableWrite seq args => some (.tableWrite, seq, args)
  | .tableWriteFirst seq args => some (.tableWrite, seq, args)
  | .tableWriteLast seq args => some (.tableWrite, seq, args)
  | .arm seq args => some (.arm, seq, args)
  | .disarm seq args => some (.disarm, seq, args)
  | .park seq args => some (.park, seq, args)
  | .wake seq args => some (.wake, seq, args)
  | .faultClear seq args => some (.faultClear, seq, args)
  | .containClear seq args => some (.containClear, seq, args)
  | .retainRelease seq args => some (.retainRelease, seq, args)
  | .maskSet seq args => some (.maskSet, seq, args)
  | .softReset seq args => some (.softReset, seq, args)
  | .replySent => none
  | .nSendEnd => none
  | .nodeReply _ => none
  | .miss _ => none
  | .stray _ => none
  | .arbiterChoice => none
  | .roomListAppend => none
  | .ageCheck => none
  | .creditTick => none
  | .watchInterval => none
  | .silenceExpiry => none
  | .stepDeadline => none
  | .seqLockExpiry => none
  | .checkCompletion => none
  | .lineClockAdvance => none
  | .replyBeginsToArrive => none

end Sys2Proof

namespace Sys2Proof.Machine

/-! ### Acceptance -/

/-- What acceptance leaves of a frame other than PHASE: the controller transaction open, the silence timer restarted if
it runs, no prefix armed (R112). -/
def State.opened (s : State) : State := ((s.setCPort .waiting).restartSilence).setPrefix false

/-- A request is accepted and passes the tests of R152, so that its own rule serves it. -/
structure State.Reaches (s : State) (r : Request) (args : List Byte) : Prop where
  idle     : s.ports.cport = .idle
  fits     : args.length ≤ 15
  complete : r.minArgs args ≤ args.length
  prefixed : r.guarded = true → s.mgmt.prefixArmed = true
  notBusy  : r.guarded = true → r ≠ .softReset → s.mgmt.engine ≠ .checking

/-- The structural tables (R159). -/
structure Tables.SameStructural (t u : Tables) : Prop where
  line      : u.line = t.line
  route     : u.route = t.route
  zone      : u.zone = t.zone
  signature : u.signature = t.signature
  select    : u.select = t.select
  plan      : u.plan = t.plan

/-! ### The room list -/

/-- The value that steps 4 and 5 make of a controller ORDER's value for the channel at index `i`: the heater inhibit, the
clamp, and for the conveyor speed channel the cap in force (R130). -/
def State.gateValue (s : State) (i : Nat) (r : RouteEntry) (v : Half) : Half :=
  let inhibited : Half := if r.kind = .heater ∧ s.contain.engaged = true then 0 else v
  let clamped : Half := if inhibited.toNat < r.clampMin then word r.clampMin
    else if r.clampMax < inhibited.toNat then word r.clampMax else inhibited
  match s.capInForce with
  | some cap => if s.conveyorRef = some i ∧ cap < clamped.toNat then word cap else clamped
  | none => clamped

/-- The part's own ORDER of `v` for a route entry at the tail of the injected-frame queue, with the engine's SEQ, which
advances (R111, R142). -/
def State.orderAtTail (r : RouteEntry) (v : Half) (origin : Origin) (s : State) : State :=
  (s.setQueue (s.arbiter.queue ++
    [{ frame := { dst := r.node, src := 62, kind := Kind.order, flags := { engine := true }, seq := s.ports.engineSeq,
                  payload := [r.chan, hiByte v, loByte v] },
       origin := origin }])).bumpSeq

/-- `t` is `s` with the first entry of the room list, already taken from it, appended: a plan ORDER of its value, its level
now awaiting the ACK; a replay as the gate decides it at that moment, dropped where the channel's group is in the controller
mask and else sent with steps 4 and 5; a hand-back ORDER of the hand-back value, which becomes absent. An entry whose slot is
no longer REPLAY_DUE, or whose hand-back value is absent, appends nothing (R108, R137, R139, R143; log entry 18). -/
def State.RoomEntryTaken (e : RoomEntry) (s t : State) : Prop :=
  match e with
  | .plan d st i v => ∀ r, s.routeAt i = some r →
      t = (s.orderAtTail r v (.plan d st i)).setLevels
        (s.levels.modify d fun l => if l.wait = .queueRoom then { l with wait := .ack } else l)
  | .replay i => ∀ r, s.routeAt i = some r →
      (∀ w, (s.gateAt i).held = .replayDue w →
        (s.gate.ctlMask.getLsbD r.group = true → t = s.modGate i fun g => { g with held := .empty }) ∧
        (s.gate.ctlMask.getLsbD r.group = false → t = s.orderAtTail r (s.gateValue i r w) (.replay i))) ∧
      ((∀ w, (s.gateAt i).held ≠ .replayDue w) → t = s)
  | .handBack i => ∀ r, s.routeAt i = some r →
      (∀ v, (s.gateAt i).handBack = some v →
        t = (s.orderAtTail r v (.handBack i)).modGate i fun g => { g with handBack := none }) ∧
      ((s.gateAt i).handBack = none → t = s)

/-- The room list fills the places of the injected-frame queue, the first to wait first, until it is empty or the queue holds
16 frames (R143). -/
inductive State.RoomFills : State → State → Prop
  | full {s : State} (h : s.arbiter.room = [] ∨ 16 ≤ s.arbiter.queue.length) : State.RoomFills s s
  | next {s u t : State} {e : RoomEntry} {es : List RoomEntry} (first : s.arbiter.room = e :: es)
      (room : s.arbiter.queue.length < 16) (taken : State.RoomEntryTaken e (s.setRoom es) u)
      (rest : State.RoomFills u t) : State.RoomFills s t

/-- The channel's owner becomes `o`: where it was another, the hand-back value becomes absent, a hand-back that waits or is
queued is removed, and the room list fills the places (R128, R139, R143, R144). -/
def State.OwnerChanges (i : Nat) (o : Owner) (s t : State) : Prop :=
  ((s.gateAt i).owner = o → t = s) ∧
  ((s.gateAt i).owner ≠ o →
    State.RoomFills
      (((s.modGate i fun g => { g with owner := o, handBack := none }).setRoom
        (s.arbiter.room.filter fun e => decide (e ≠ .handBack i))).setQueue
          (s.arbiter.queue.filter fun q => decide (q.origin ≠ .handBack i))) t)

/-! ### Plan orders -/

/-- A plan order takes the channel of a replay that is queued or waits for room: the replay is removed, its slot returns from
REPLAY_DUE to HELD, and the room list fills the places (R138, R144; a slot that is not REPLAY_DUE stays, log entry 30). -/
def State.ReplayRecalled (i : Nat) (s t : State) : Prop :=
  let waits := (∃ q ∈ s.arbiter.queue, q.origin = .replay i) ∨ RoomEntry.replay i ∈ s.arbiter.room
  let back : HeldSlot := match (s.gateAt i).held with
    | .replayDue w => .held w
    | h => h
  (¬ waits → t = s) ∧
  (waits →
    State.RoomFills
      (((s.modGate i fun g => { g with held := back }).setRoom
        (s.arbiter.room.filter fun e => decide (e ≠ .replay i))).setQueue
          (s.arbiter.queue.filter fun q => decide (q.origin ≠ .replay i))) t)

/-- A plan order takes the channel of the waiting gated order: that order is withdrawn, its slot holds the value as the cycle
controller sent it, and it is answered ACK HELD with the applied value (R134). -/
def State.OrderWithdrawn (i : Nat) (s t : State) : Prop :=
  (∀ req w, s.arbiter.waiting = some { req := req, kind := .order i w } →
    t = ((s.setWaiting none).modGate i fun g => { g with held := .held req.orderValue }).reply
      (gateAck req 2 (s.imageAt i).applied)) ∧
  ((∀ c w, s.arbiter.waiting = some c → c.kind ≠ .order i w) → t = s)

/-- `t` is `s` with a plan order of `v` for channel `i` placed by the running level `l`, which stands above `below`: the level
owns the channel, a superseded hand-back, replay or waiting gated order of it goes, the level's touched set lists the value,
and the order stands at the queue's tail or, while the queue is full, waits in the level (R97, R134, R138, R139). -/
def State.OrderPlaced (below : List Level) (l : Level) (i : Nat) (v : Half) (phase : Nat) (s t : State) : Prop :=
  ∀ r, s.routeAt i = some r → ∃ s₁ s₂ s₃ : State,
    s.OwnerChanges i (.level below.length) s₁ ∧ s₁.ReplayRecalled i s₂ ∧ s₂.OrderWithdrawn i s₃ ∧
    let waits := fun (k : WaitKind) (u : State) =>
      u.setLevels (s₃.levels.dropLast ++
        [{ l with touched := touch i v l.touched, wait := k, tankPhase := phase, deadline := none, justBegun := true }])
    (s₃.arbiter.queue.length < 16 → t = waits .ack (s₃.orderAtTail r v (.plan below.length l.step i))) ∧
    (16 ≤ s₃.arbiter.queue.length →
      t = waits .queueRoom (s₃.setRoom (s₃.arbiter.room ++ [.plan below.length l.step i v])))

/-! ### The ends of a level -/

/-- A plan order of the level at a depth that is on the line belongs to no level from now on (R92, R105). -/
def NodeTrans.orphaned (depth : Nat) (t : NodeTrans) : NodeTrans :=
  match t.origin with
  | .plan d _ i => if d = depth then { t with origin := .planOrphan i } else t
  | _ => t

/-- The level that stood at a depth and served class `cls` is gone: its latch is RESOLVED or FAILED with its ending,
PLAN_ENDED is queued with the ending step, and an order of it on the line belongs to no level (R105, R106). -/
def State.levelGone (depth cls : Nat) (ok : Bool) (at_ : Nat) (s : State) : State :=
  { s with
    latches := s.latches.setIfInBounds cls
      { s.latchAt cls with state := if ok then .resolved else .failed, ending := some (if ok then .ok else .fail) }
    notices := pushNotice s.notices
      { kind := .planEnded, time := s.time.clock, a := word cls, b := if ok then 1 else 2, c := word at_,
        overflowed := false }
    levels := s.levels.dropLast
    ports := { s.ports with trans := s.ports.trans.map (NodeTrans.orphaned depth) } }

/-- The channels listed become RETAINED, one after another (R106). -/
def State.AllRetained : List Nat → State → State → Prop
  | [], s, t => t = s
  | i :: is, s, t => ∃ u, s.OwnerChanges i .retained u ∧ State.AllRetained is u t

/-- The running level `l` at a depth ends as END_FAIL does: each channel it owns becomes RETAINED in ascending route index,
and the level is gone, with its ending step (R106). -/
def State.LevelFails (depth : Nat) (l : Level) (s t : State) : Prop :=
  ∃ u, State.AllRetained ((List.range 64).filter fun i => decide ((s.gateAt i).owner = .level depth)) s u ∧
    t = u.levelGone depth l.cls false l.step

/-! ### Invariants -/

/-- Every queue, list and count stays within the capacity the manual gives it (R3, R6, R39, R60, R63, R74, R79, R88, R122,
R142, R168). The persistence of a present signature is what bounds the persistence counts. -/
structure State.Capacities (s : State) : Prop where
  queue   : s.arbiter.queue.length ≤ 16
  notices : s.notices.length ≤ 16
  racks   : s.journal.racks.length ≤ 32
  levels  : s.levels.length ≤ 3
  misses  : ∀ i (h : i < 61), s.ports.misses[i] ≤ 3
  latches : ∀ c, (s.latchAt c).count ≤ 255
  repeats : s.contain.repeats ≤ 255
  credits : ∀ r ∈ s.journal.racks, ∀ c ∈ r.credits, c.heat ≤ 65535 ∧ c.action ≤ 65535
  lists   : ∀ r ∈ s.journal.racks, r.credits.length ≤ 8
  sigs    : ∀ g e, s.sigAt g = some e → e.persistence ≤ 15
  runs    : ∀ g, (s.runAt g).count ≤ 15

/-- What depends on the engine state stands as the engine state says: a running check in CHECKING alone, the watch
deadline in WATCH alone, the silence timer exactly under its three conditions, credit ticks, records and levels in ARMED
alone (R6, R72, R88, R149, R154, R173, R176). -/
structure State.EngineForm (s : State) : Prop where
  check   : s.mgmt.engine ≠ .checking → s.mgmt.checkBegan = none
  watch   : s.mgmt.engine ≠ .watch → s.time.watchDeadline = none
  silence : s.time.silence.isSome = s.silenceRuns
  credit  : s.mgmt.engine ≠ .armed → s.time.creditDue = false
  racks   : s.mgmt.engine ≠ .armed → s.journal.racks = []
  levels  : s.mgmt.engine ≠ .armed → s.levels = []

/-- The open node transaction carries the controller frame. -/
def State.carriesController (s : State) : Bool :=
  match s.ports.trans with
  | some { origin := .controller _, .. } => true
  | _ => false

/-- Every queued frame is the part's own or a forwarded PHASE broadcast, and only a PHASE frame has that origin (R142). -/
def State.QueueForm (s : State) : Prop :=
  ∀ q ∈ s.arbiter.queue, (q.origin = .phase ↔ q.frame.kind = Kind.phase) ∧ ∀ c, q.origin ≠ .controller c

/-- One controller transaction: an accepted frame that has no reply yet waits for the N-side or is on it, and in one of
the two places alone; no frame waits or is on the line without it (R112, R114, R123). -/
structure State.OneTransaction (s : State) : Prop where
  answered : s.ports.cport = .waiting ↔ (s.arbiter.waiting.isSome = true ∨ s.carriesController = true)
  once     : ¬ (s.arbiter.waiting.isSome = true ∧ s.carriesController = true)

end Sys2Proof.Machine
end

