-- ==== Sys2Proof/Certificates/Slice0/Obligations.lean ====
section
/-! DEFINITION. The statements for the provers, each a rule of the manual about the model or an invariant of it. -/

open Sys2Proof Sys2Proof.Machine

/-! ### One step, reset, invariants -/

/-- A step takes the command at the front of the queue and is its exec with the queue's rest; on an empty queue the part
idles (the model's own convention, log entry 1). -/
def Obligations.StepRunsTheFrontCommand : Prop :=
  (∀ (s : State) (c : Instr) (rest : List Instr), s.pending = c :: rest →
    step s = exec c { s with pending := rest }) ∧
  ∀ s : State, s.pending = [] → step s = .next s

/-- RESET_N completes and leaves every block's power-on values, the channel image, the run states and the gate entries among
them; the queue of commands is the model's and is kept (log entry 1). -/
def Obligations.ResetNGivesPowerOnValues : Prop :=
  ∀ s : State, ∃ t, exec .resetN s = .next t ∧ t.pending = s.pending ∧
    t.mgmt.engine = .config ∧ t.mgmt.prefixArmed = false ∧ t.mgmt.staging = none ∧ t.mgmt.lastResult = none ∧
    t.mgmt.detail = { table := 0, index := 0, sub := 0, reason := .none } ∧
    t.tables.line = none ∧ (∀ i, t.routeAt i = none) ∧ (∀ z, t.zoneAt z = none) ∧ (∀ c, t.curveAt c = none) ∧
    (∀ g, t.sigAt g = none) ∧ (∀ p st, t.planSlot p st = none) ∧ (∀ c ph, t.selectCell c ph = none) ∧
    (∀ c, c < 12 → (t.classAt c).enable = true ∧ (t.classAt c).watch = false) ∧
    (∀ c, t.latchAt c = { state := .clear, count := 0, firstCause := none, ending := none }) ∧
    t.contain = { engaged := false, firstCause := none, repeats := 0 } ∧
    t.journal = { travel := 0, racks := [], nextTag := 0, overflow := false, entryLast := false, exitLast := false } ∧
    t.levels = [] ∧ t.gate.ctlMask = 0 ∧ t.gate.planMask = 0 ∧ t.gate.lock = none ∧
    t.arbiter = { queue := [], room := [], waiting := none, lastServed := .injected } ∧
    (∀ i, t.imageAt i = { value := 0, status := .never, lastReading := none, pollRef := none, keepPending := false,
                          applied := 0 }) ∧
    (∀ g, t.runAt g = { count := 0, last := .none, anchor := none }) ∧
    (∀ i, t.gateAt i = { owner := .controller, held := .empty, handBack := none, forceOffDue := false,
                         deferred := false }) ∧
    t.mgmt.checkBegan = none ∧ t.ports.cport = .idle ∧ t.ports.sending = none ∧ t.ports.trans = none ∧
    (∀ n, t.missesAt n = 0) ∧ t.ports.engineSeq = 0 ∧ t.ports.phase = .standby ∧
    t.ports.sticky = { overrun := false, badC := false, badN := false, stray := false, badPhase := false } ∧
    t.notices = [] ∧ t.time.clock = 0 ∧ t.time.watchDeadline = none ∧ t.time.wakeOnTraffic = false ∧
    t.time.silence = none

/-- The state after reset has all four invariants. -/
def Obligations.ResetHasTheInvariants : Prop :=
  State.reset.Capacities ∧ State.reset.EngineForm ∧ State.reset.OneTransaction ∧ State.reset.QueueForm

/-- Every step keeps every queue, list and count within its capacity, the credit lists and the persistence counts among
them. -/
def Obligations.StepKeepsCapacities : Prop :=
  ∀ s t : State, s.Capacities → step s = .next t → t.Capacities

/-- Every step keeps what depends on the engine state as the engine state says. -/
def Obligations.StepKeepsEngineForm : Prop :=
  ∀ s t : State, s.EngineForm → step s = .next t → t.EngineForm

/-- Every step keeps the origins of the queued frames, and with them the one controller transaction: an accepted frame
without a reply is in one place. -/
def Obligations.StepKeepsOneTransaction : Prop :=
  ∀ s t : State, s.QueueForm → step s = .next t → t.QueueForm ∧ (s.OneTransaction → t.OneTransaction)

/-! ### Whole-part rules -/

/-- No command touches the queue of waiting commands. -/
def Obligations.ExecKeepsTheCommandQueue : Prop :=
  ∀ (c : Instr) (s t : State), exec c s = .next t → t.pending = s.pending

/-- Outside CONFIG no command but RESET_N changes a structural table, and in CHECKING and WATCH none changes any
table. -/
def Obligations.StructuralTablesChangeInConfigAlone : Prop :=
  ∀ (c : Instr) (s t : State), c ≠ .resetN → s.mgmt.engine ≠ .config → exec c s = .next t →
    s.tables.SameStructural t.tables ∧ (s.mgmt.engine ≠ .armed → t.tables = s.tables)

/-- Only LINE_CLOCK_ADVANCE and RESET_N change the line clock. -/
def Obligations.OtherCommandsKeepTheClock : Prop :=
  ∀ (c : Instr) (s t : State), c ≠ .resetN → c ≠ .lineClockAdvance → exec c s = .next t →
    t.time.clock = s.time.clock

/-- A change of engine state is one of the table's: ARMED is entered from CHECKING by the check's completion alone, WATCH
is entered from ARMED alone with no record and no level, and its end leaves no watch deadline. -/
def Obligations.EngineStateFollowsItsTable : Prop :=
  ∀ (c : Instr) (s t : State), c ≠ .resetN → exec c s = .next t → t.mgmt.engine ≠ s.mgmt.engine →
    (s.mgmt.engine = .config ∧ t.mgmt.engine = .checking) ∨
    (s.mgmt.engine = .checking ∧ t.mgmt.engine = .armed ∧ c = .checkCompletion) ∨
    (s.mgmt.engine = .checking ∧ t.mgmt.engine = .config) ∨
    (s.mgmt.engine = .armed ∧ t.mgmt.engine = .config) ∨
    (s.mgmt.engine = .armed ∧ t.mgmt.engine = .watch ∧ s.journal.racks = [] ∧ s.levels = []) ∨
    (s.mgmt.engine = .watch ∧ (t.mgmt.engine = .armed ∨ t.mgmt.engine = .config) ∧ t.time.watchDeadline = none)

/-- Under containment an ORDER that leaves the N-port for a HEATER carries 0, whatever its origin but a transparent
frame. -/
def Obligations.HeaterOrdersLeaveAsZero : Prop :=
  ∀ (s t : State) (f : Sys2Proof.Frame) (i : Nat) (r : RouteEntry), s.QueueForm → s.contain.engaged = true →
    (∀ c, s.arbiter.waiting = some c → c.kind ≠ .transparent) → s.ports.sending = none →
    exec .arbiterChoice s = .next t → t.ports.sending = some f → f.isOrder = true →
    s.findRoute f.dst f.chan = some (i, r) → r.kind = .heater → f.orderValue = 0

/-! ### Frames and entries -/

/-- A frame that is not malformed is read back from its own characters. -/
def Obligations.FramesSurviveTheWire : Prop :=
  ∀ f : Sys2Proof.Frame, f.malformed = false → parseFrame (encodeFrame f) = some f

/-- Every table entry's bytes, once accepted, are the bytes TABLE_READ gives back. A CURVE written as SINGLE reads zeros
in its second half. That the ignored bits 7 to 2 of a CLASS byte are kept and read back is the model's choice (log entry 6). -/
def Obligations.EntriesReadBackAsCommitted : Prop :=
  (∀ d e, parseLine d = some e → encodeLine e = d) ∧
  (∀ d e, parseRoute d = some e → encodeRoute e = d) ∧
  (∀ d₁ d₂ e, parseZone d₁ d₂ = some e → encodeZoneFirst e = d₁ ∧ encodeZoneLast e = d₂) ∧
  (∀ d e, d.length = 13 → parseCurveSingle d = some e →
    encodeCurveFirst e = d ∧ encodeCurveLast e = List.replicate 12 0) ∧
  (∀ d₁ d₂ e, d₁.length = 13 → d₂.length = 12 → parseCurveJoined d₁ d₂ = some e →
    encodeCurveFirst e = d₁ ∧ encodeCurveLast e = d₂) ∧
  (∀ d e, parseSignature d = some e → encodeSignature e = d) ∧
  (∀ d e, parseClass d = some e → encodeClass e = d) ∧
  (∀ d e, parseSelect d = some e → encodeSelect e = d) ∧
  (∀ d e, parsePlanSlot d = some e → encodePlanSlot (d.getD 0 0).toNat e = d)

/-! ### Racks, credit, disposition -/

/-- The centre of a record, and that a negative one lies in no zone. -/
def Obligations.CentreOfARecord : Prop :=
  ∀ (r : Rack) (travel : Travel),
    (r.state = .entering → r.centre travel = ((r.position travel / 2 : Nat) : Int)) ∧
    (∀ n, r.state ≠ .entering → r.length = some n →
      r.centre travel = (r.position travel : Int) - ((n / 2 : Nat) : Int)) ∧
    (r.state = .inLine → r.length = some 40 → r.position travel < 20 → r.centre travel < 0) ∧
    (∀ (tb : Tables) (z : Nat), r.centre travel < 0 → tb.inZone z (r.centre travel) = false)

/-- A curve holds its end weights outside its breakpoints. -/
def Obligations.CurveHoldsItsEndWeights : Prop :=
  ∀ (c : CurveEntry) (x : Nat), 2 ≤ c.count → c.count ≤ c.points.length →
    ascending (c.points.take c.count) = true →
    (∀ p, c.points[0]? = some p → x ≤ p.x → c.weight x = p.w) ∧
    (∀ p, c.points[c.count - 1]? = some p → p.x ≤ x → c.weight x = p.w)

/-- Between its breakpoints a curve's weight is the straight line of its segment, the division rounding toward zero; it
lies between the segment's weights, and at a breakpoint it is that breakpoint's weight. -/
def Obligations.CurveInterpolatesTowardZero : Prop :=
  ∀ (c : CurveEntry) (i x : Nat) (p q : Breakpoint), 2 ≤ c.count → i + 1 < c.count → c.count ≤ c.points.length →
    ascending (c.points.take c.count) = true → (∀ b ∈ c.points.take c.count, b.x ≤ 1500 ∧ b.w ≤ 255) →
    c.points[i]? = some p → c.points[i + 1]? = some q →
    (p.x ≤ x → x < q.x →
      (c.weight x : Int) = p.w + (((x : Int) - p.x) * ((q.w : Int) - p.w)).tdiv ((q.x : Int) - p.x) ∧
      min p.w q.w ≤ c.weight x ∧ c.weight x ≤ max p.w q.w ∧ c.weight x ≤ 255 ∧
      (((x : Int) - p.x) * ((q.w : Int) - p.w)).natAbs ≤ 382500 ∧
      ((((x : Int) - p.x) * ((q.w : Int) - p.w)).tdiv ((q.x : Int) - p.x)).natAbs ≤ 255) ∧
    c.weight q.x = q.w

/-- A credit tick that is due in ARMED credits every record for the zone its centre lies in, changes nothing else of it,
and lowers no credit. A target of 0 leaves its credit as it was; the gap flag is set where a consulted channel is not FRESH,
and stays as it was where every one is FRESH with its curve present. A tick that is not due changes nothing. -/
def Obligations.CreditTickCreditsEveryRecord : Prop :=
  (∀ s : State, s.mgmt.engine ≠ .armed ∨ s.time.creditDue = false → exec .creditTick s = .next s) ∧
  ∀ s : State, s.mgmt.engine = .armed → s.time.creditDue = true →
    ∃ racks : List Rack,
      exec .creditTick s = .next { s with journal := { s.journal with racks := racks },
                                          time := { s.time with creditDue := false } } ∧
      racks.length = s.journal.racks.length ∧
      ∀ (k : Nat) (r : Rack), s.journal.racks[k]? = some r →
        ∃ cs : List Credit, racks[k]? = some { r with credits := cs } ∧ cs.length = r.credits.length ∧
          ∀ (j : Nat) (c : Credit), r.credits[j]? = some c →
            ∃ c' : Credit, cs[j]? = some c' ∧ c'.zone = c.zone ∧ (c.gap = true → c'.gap = true) ∧
              (c.heat ≤ 65535 → c.heat ≤ c'.heat ∧ c'.heat ≤ 65535) ∧
              (c.action ≤ 65535 → c.action ≤ c'.action ∧ c'.action ≤ 65535) ∧
              (s.tables.zoneOf (r.centre s.journal.travel) ≠ some c.zone → c' = c) ∧
              (∀ e i v, s.tables.zoneOf (r.centre s.journal.travel) = some c.zone → s.zoneAt c.zone = some e →
                0 < e.heatTarget → e.temp = some i → s.curveAt e.heatCurve = some v →
                ((s.imageAt i).status = .fresh → c'.heat = min 65535 (c.heat + v.weight (s.imageAt i).value.toNat)) ∧
                ((s.imageAt i).status ≠ .fresh → c'.heat = c.heat ∧ c'.gap = true)) ∧
              (∀ e i v, s.tables.zoneOf (r.centre s.journal.travel) = some c.zone → s.zoneAt c.zone = some e →
                0 < e.actTarget → e.press = some i → s.curveAt e.actCurve = some v →
                ((s.imageAt i).status = .fresh →
                  c'.action = min 65535 (c.action + v.weight (s.imageAt i).value.toNat)) ∧
                ((s.imageAt i).status ≠ .fresh → c'.action = c.action ∧ c'.gap = true)) ∧
              (∀ e, s.tables.zoneOf (r.centre s.journal.travel) = some c.zone → s.zoneAt c.zone = some e →
                (e.heatTarget = 0 → c'.heat = c.heat) ∧ (e.actTarget = 0 → c'.action = c.action) ∧
                ((0 < e.heatTarget → ∃ i, e.temp = some i ∧ (s.imageAt i).status = .fresh ∧
                    (s.curveAt e.heatCurve).isSome = true) →
                  (0 < e.actTarget → ∃ i, e.press = some i ∧ (s.imageAt i).status = .fresh ∧
                    (s.curveAt e.actCurve).isSome = true) →
                  c'.gap = c.gap))

/-- The rack journal at an OK reading of an eye or of the ADVANCE channel: outside ARMED the last value alone; a record made
at a blocking edge of the entry eye and finished at the clearing one, an overflow, or no ENTERING record to finish; the exit
window at a blocking edge of the exit eye, and the removal at the clearing one, if a record is AT_EXIT; line travel at an
ADVANCE update, positions held to their ceiling by moving the entry travel forward by the excess, and the oldest IN_LINE
record beyond the exit window removed as missed. -/
def Obligations.JournalFollowsEyesAndAdvance : Prop :=
  ∀ (s : State) (l : LineRecord) (i : Nat) (v : Half), s.tables.line = some l →
    let j := s.journal
    let entry := fun (b : Bool) (u : State) => u.setJournal { u.journal with entryLast := b }
    let exit := fun (b : Bool) (u : State) => u.setJournal { u.journal with exitLast := b }
    s.journalReading i v false = s ∧
    (i ≠ l.entryEye → i ≠ l.exitEye → i ≠ l.advance → s.journalReading i v true = s) ∧
    (i = l.entryEye → i ≠ l.exitEye → i ≠ l.advance →
      (s.mgmt.engine ≠ .armed → s.journalReading i v true = entry (decide (v ≠ 0)) s) ∧
      (s.mgmt.engine = .armed → decide (v ≠ 0) = j.entryLast → s.journalReading i v true = s) ∧
      (s.mgmt.engine = .armed → v ≠ 0 → j.entryLast = false → j.racks.length < 32 →
        ∃ n tag, n ≤ 32 ∧ tag = j.nextTag + BitVec.ofNat 12 n ∧ (∀ r ∈ j.racks, r.tag ≠ tag) ∧
          (∀ m, m < n → ∃ r ∈ j.racks, r.tag = j.nextTag + BitVec.ofNat 12 m) ∧
          s.journalReading i v true =
            entry true (s.setJournal { j with
              racks := j.racks ++ [{ tag := tag, entryTravel := j.travel, length := none, state := .entering,
                                     merged := false, rerun := false, credits := s.tables.newCredits,
                                     overlap := none }],
              nextTag := tag + 1 })) ∧
      (s.mgmt.engine = .armed → v ≠ 0 → j.entryLast = false → 32 ≤ j.racks.length →
        s.journalReading i v true =
          entry true ((s.setJournal { j with overflow := true }).trackFault .overflow none)) ∧
      (s.mgmt.engine = .armed → v = 0 → j.entryLast = true → j.overflow = true →
        s.journalReading i v true = entry false (s.setJournal { j with overflow := false })) ∧
      (s.mgmt.engine = .armed → v = 0 → j.entryLast = true → j.overflow = false →
        (∀ rs r, j.racks = rs ++ [r] → r.state ≠ .entering) → s.journalReading i v true = entry false s) ∧
      ∀ rs r, s.mgmt.engine = .armed → v = 0 → j.entryLast = true → j.overflow = false → j.racks = rs ++ [r] →
        r.state = .entering →
        let n := max 40 (r.position j.travel)
        s.journalReading i v true =
          entry false (s.setJournal { j with
            racks := rs ++ [{ r with length := some n, merged := decide (l.maxLength < n), state := .inLine }] })) ∧
    (i = l.exitEye → i ≠ l.entryEye → i ≠ l.advance →
      (s.mgmt.engine ≠ .armed → s.journalReading i v true = exit (decide (v ≠ 0)) s) ∧
      (s.mgmt.engine = .armed → decide (v ≠ 0) = j.exitLast → s.journalReading i v true = s) ∧
      (s.mgmt.engine = .armed → v ≠ 0 → j.exitLast = false → (∀ r ∈ j.racks, r.state ≠ .inLine) →
        s.journalReading i v true = exit true (s.trackFault .phantom none)) ∧
      (∀ k r, s.mgmt.engine = .armed → v ≠ 0 → j.exitLast = false → j.racks[k]? = some r → r.state = .inLine →
        (∀ m q, m < k → j.racks[m]? = some q → q.state ≠ .inLine) →
        (r.position j.travel + l.exitTol < l.exitPos →
          s.journalReading i v true = exit true (s.trackFault .phantom (some r.tag))) ∧
        (l.exitPos ≤ r.position j.travel + l.exitTol → r.position j.travel ≤ l.exitPos + l.exitTol →
          s.journalReading i v true =
            exit true (s.setJournal { j with racks := j.racks.set k { r with state := .atExit } })) ∧
        (l.exitPos + l.exitTol < r.position j.travel →
          s.journalReading i v true = exit true ((s.removeRack k true).trackFault .missed (some r.tag)))) ∧
      (s.mgmt.engine = .armed → v = 0 → j.exitLast = true → (∀ r ∈ j.racks, r.state ≠ .atExit) →
        s.journalReading i v true = exit false s) ∧
      ∀ k r, s.mgmt.engine = .armed → v = 0 → j.exitLast = true → j.racks[k]? = some r → r.state = .atExit →
        (∀ m q, m < k → j.racks[m]? = some q → q.state ≠ .atExit) →
        s.journalReading i v true = exit false (s.removeRack k false)) ∧
    (i = l.advance → i ≠ l.entryEye → i ≠ l.exitEye →
      let travel := j.travel + v.setWidth 24
      (s.mgmt.engine ≠ .armed ∨ 255 < v.toNat → s.journalReading i v true = s) ∧
      (∀ r ∈ j.racks,
        let unheld := (travel - r.entryTravel).toNat
        (unheld ≤ 65535 → r.ceil travel = r) ∧
        (65535 < unheld → r.ceil travel = { r with entryTravel := r.entryTravel + BitVec.ofNat 24 (unheld - 65535) }) ∧
        (travel - (r.ceil travel).entryTravel).toNat = min unheld 65535 ∧
        (r.ceil travel).position travel = r.position travel) ∧
      let moved := s.setJournal { j with travel := travel, racks := j.racks.map fun r => r.ceil travel }
      (s.mgmt.engine = .armed → v.toNat ≤ 255 →
        (∀ r ∈ j.racks, r.state = .inLine → r.position travel ≤ l.exitPos + l.exitTol) →
        s.journalReading i v true = moved) ∧
      ∀ k r, s.mgmt.engine = .armed → v.toNat ≤ 255 → j.racks[k]? = some r → r.state = .inLine →
        (∀ m q, m < k → j.racks[m]? = some q → q.state ≠ .inLine) →
        (r.position travel ≤ l.exitPos + l.exitTol → s.journalReading i v true = moved) ∧
        (l.exitPos + l.exitTol < r.position travel →
          s.journalReading i v true = (moved.removeRack k true).trackFault .missed (some r.tag)))

/-- The disposition of a removed record: DOUBT when MERGED or MISSED, else RERUN when marked or some required credit is
below its target, else ACCEPT; gap flags and the fault overlap do not enter. RACK_LEFT carries the code, and a record that is
not ACCEPT brings the indicator order of 100, dropped when the queue is full. -/
def Obligations.DispositionOfARemovedRecord : Prop :=
  ∀ (r : Rack) (tb : Tables) (missed : Bool),
    (r.merged = true ∨ missed = true → r.disposition tb missed = .doubt) ∧
    (r.merged = false → missed = false →
      (r.disposition tb missed = .rerun ↔
        (r.rerun = true ∨ ∃ c ∈ r.credits, ∃ z, (tb.zone[c.zone]?).join = some z ∧
          ((0 < z.heatTarget ∧ c.heat < z.heatTarget) ∨ (0 < z.actTarget ∧ c.action < z.actTarget)))) ∧
      (r.disposition tb missed ≠ .rerun → r.disposition tb missed = .accept)) ∧
    (∀ o g, { r with overlap := o, credits := r.credits.map fun c => { c with gap := g } : Rack }.disposition tb missed =
      r.disposition tb missed) ∧
    Disposition.accept.code = 1 ∧ Disposition.rerun.code = 2 ∧ Disposition.doubt.code = 3 ∧
    ∀ (s : State) (k : Nat), s.journal.racks[k]? = some r → s.tables = tb →
      (s.removeRack k missed).notices =
        pushNotice s.notices
          { kind := .rackLeft, time := s.time.clock, a := word r.tag.toNat, b := word (r.disposition tb missed).code,
            c := half (bit r.merged 0 ||| bit missed 1 ||| bit r.rerun 2 ||| bit (r.credits.any (·.gap)) 3 |||
                bit r.overlap.isSome 4) (optByte (r.overlap.map (·.cls))),
            overflowed := false } ∧
      (let left := { s with
         journal := { s.journal with racks := s.journal.racks.eraseIdx k }
         notices := (s.removeRack k missed).notices }
       (r.disposition tb missed = .accept → s.removeRack k missed = left) ∧
       ((∀ l, tb.line = some l → l.indicator = none) → s.removeRack k missed = left) ∧
       (16 ≤ s.arbiter.queue.length → s.removeRack k missed = left) ∧
       ∀ l i e, r.disposition tb missed ≠ .accept → tb.line = some l → l.indicator = some i → s.routeAt i = some e →
         s.arbiter.queue.length < 16 →
         s.removeRack k missed =
           (left.setQueue (s.arbiter.queue ++
             [{ frame := { dst := e.node, src := 62, kind := Kind.order, flags := { engine := true },
                           seq := s.ports.engineSeq, payload := [e.chan, 0, 100] },
                origin := .indicator i }])).bumpSeq)

/-- The deadline of a tank wait: from the zone's rate and offset when the rate is not 0, between 1 s and 2550 s; else from
the step's own timeout, where 0 is no limit. -/
def Obligations.TankDeadlines : Prop :=
  ∀ (now : Clock) (volume rate offset timeout : Nat),
    (1 ≤ rate → tankDeadline now volume rate offset timeout =
      some (now + BitVec.ofNat 32 (100 * (volume * rate + 10 * offset)))) ∧
    (rate = 0 → timeout = 0 → tankDeadline now volume rate offset timeout = none) ∧
    (rate = 0 → timeout ≠ 0 → tankDeadline now volume rate offset timeout =
      some (now + BitVec.ofNat 32 (10 * timeout))) ∧
    (1 ≤ volume → volume ≤ 40 → 1 ≤ rate → rate ≤ 63 → offset ≤ 3 →
      1 ≤ volume * rate + 10 * offset ∧ volume * rate + 10 * offset ≤ 2550)

/-! ### Image, raises, containment, plans -/

/-- A reading of a sensor entry is taken in stages, in order: its image entry, which alone of the image changes; the rack
journal; the 48 signatures in ascending index, each complete before the next, with the value the image then holds; the
executor, for which a wait that begins while the reading is taken is marked as not tested by it (log entry 7). -/
def Obligations.ReadingUpdatesItsImageEntry : Prop :=
  ∀ (s : State) (i : Nat) (v : Half) (ok : Bool), i < 64 →
    ((s.takeReading i v ok).imageAt i =
      (if ok then { s.imageAt i with value := v, status := .fresh, lastReading := some s.time.clock,
                                     pollRef := some s.time.clock }
       else { s.imageAt i with status := .bad, lastReading := some s.time.clock, pollRef := some s.time.clock }) ∧
      ∀ j, j ≠ i → (s.takeReading i v ok).imageAt j = s.imageAt j) ∧
    let begun := s.setLevels (s.levels.map fun l => { l with justBegun := false })
    let taken := begun.modImage i fun c =>
      if ok then { c with value := v, status := .fresh, lastReading := some s.time.clock, pollRef := some s.time.clock }
      else { c with status := .bad, lastReading := some s.time.clock, pollRef := some s.time.clock }
    let held : Half := if ok then v else (s.imageAt i).value
    s.takeReading i v ok =
      State.executorReading i v ok
        ((List.range 48).foldl (fun u g => u.evalReading g i held ok) (taken.journalReading i v ok))

/-- One signature at a reading of its channel A: evaluated in ARMED, and in WATCH for a watch-enabled class; the gate list;
the outcome of each test; the five cases of CHANGE_BELOW; the persistence count, and the raise with its cause. -/
def Obligations.SignaturesAreEvaluated : Prop :=
  ∀ (s : State) (g i : Nat) (e : SigEntry) (v : Half) (ok : Bool), g < 48 → s.sigAt g = some e →
    let run := s.runAt g
    let on := fun (c : GateCond) => if c.on then (s.imageAt c.ref).applied ≠ 0 else (s.imageAt c.ref).applied = 0
    let settled := fun (hit : Bool) (x : Int) (anchor : Option (Half × Clock)) (t : State) =>
      (hit = false → t = s.setRun g { count := 0, last := .no, anchor := anchor }) ∧
      (hit = true → run.count + 1 < e.persistence →
        t = s.setRun g { count := run.count + 1, last := .hit, anchor := anchor }) ∧
      (hit = true → e.persistence ≤ run.count + 1 →
        t = (s.setRun g { count := 0, last := .hit, anchor := anchor }).raise e.cls
          { source := .signature g, zone := e.zone, value := max (-32768) (min 32767 x), time := s.time.clock })
    (s.gatesHold e = true ↔ (1 ≤ e.gateCount → on e.gate1) ∧ (2 ≤ e.gateCount → on e.gate2)) ∧
    (e.chA ≠ i ∨ s.mgmt.engine = .config ∨ s.mgmt.engine = .checking ∨
      (s.mgmt.engine = .watch ∧ (s.classAt e.cls).watch = false) → s.evalReading g i v ok = s) ∧
    (e.chA = i → s.mgmt.engine = .armed ∨ (s.mgmt.engine = .watch ∧ (s.classAt e.cls).watch = true) →
      (e.test ≠ .changeBelow → s.gatesHold e = false → s.evalReading g i v ok = s) ∧
      (e.test = .above ∨ e.test = .below ∨ e.test = .equal ∨ e.test = .diffAbove → ok = false →
        s.evalReading g i v ok = s) ∧
      (∀ b, e.test = .diffAbove → e.chB = some b → (s.imageAt b).status ≠ .fresh → s.evalReading g i v ok = s) ∧
      (∀ (hit : Bool) (x : Int), s.gatesHold e = true →
        (ok = true ∧ x = v.toNat ∧
            ((e.test = .above ∧ hit = decide (e.threshold < x)) ∨ (e.test = .below ∧ hit = decide (x < e.threshold)) ∨
              (e.test = .equal ∧ hit = decide (x = e.threshold))) ∨
          (ok = true ∧ e.test = .diffAbove ∧ hit = decide (e.threshold < x) ∧ ∃ b, e.chB = some b ∧
            (s.imageAt b).status = .fresh ∧ x = (v.toNat : Int) - (s.imageAt b).value.toNat) ∨
          (x = 0 ∧ e.test = .bad ∧ hit = !ok) ∨ (x = 0 ∧ e.test = .stale ∧ hit = false)) →
        settled hit x run.anchor (s.evalReading g i v ok)) ∧
      (e.test = .changeBelow →
        (s.gatesHold e = false →
          s.evalReading g i v ok =
            s.setRun g { run with anchor := if ok then some (v, s.time.clock) else none }) ∧
        (s.gatesHold e = true → ok = false → s.evalReading g i v ok = s.setRun g { run with anchor := none }) ∧
        (s.gatesHold e = true → ok = true → run.anchor = none →
          s.evalReading g i v ok = s.setRun g { run with anchor := some (v, s.time.clock) }) ∧
        ∀ v₀ t₀, s.gatesHold e = true → ok = true → run.anchor = some (v₀, t₀) →
          ((s.time.clock - t₀).toNat < e.window * 100 → s.evalReading g i v ok = s) ∧
          (e.window * 100 ≤ (s.time.clock - t₀).toNat →
            let x : Int := (v.toNat : Int) - v₀.toNat
            settled (decide (x < e.threshold)) x (some (v, s.time.clock)) (s.evalReading g i v ok))))

/-- A raise of a containment class in ARMED, or in WATCH of a watch-enabled one, engages containment where it is off: the
first cause, a force-off owed to every HEATER entry, no deferred mark, and the sequence lock off, whatever plans the raise
then starts. CONTAIN_ENGAGED is queued, nothing else changes, and the latch then acts on the raise; in WATCH the engine then
returns to ARMED with the notice WAKE, the silence timer starts as its conditions say, and the executor evaluates. -/
def Obligations.ContainmentEngages : Prop :=
  ∀ (s : State) (c : Nat) (cause : Cause), c ≤ 2 → s.contain.engaged = false →
    s.mgmt.engine = .armed ∨ (s.mgmt.engine = .watch ∧ (s.classAt c).watch = true) →
    (s.raise c cause).contain = { engaged := true, firstCause := some { cls := c, zone := cause.zone }, repeats := 0 } ∧
    (s.raise c cause).gate.lock = none ∧ (s.raise c cause).mgmt.engine = .armed ∧
    (∀ i, s.hasKind i .heater = true →
      ((s.raise c cause).gateAt i).forceOffDue = true ∧ ((s.raise c cause).gateAt i).deferred = false) ∧
    ∃ cells : Vector GateCell 64,
      let u := { s with
        contain := { engaged := true, firstCause := some { cls := c, zone := cause.zone }, repeats := 0 }
        gate := { s.gate with cells := cells, lock := none }
        notices := pushNotice s.notices
          { kind := .containEngaged, time := s.time.clock, a := word c, b := optHalf cause.zone, c := 0xFFFF,
            overflowed := false } }
      (s.mgmt.engine = .armed → s.raise c cause = u.latchRaise c cause) ∧
      (s.mgmt.engine = .watch →
        s.raise c cause =
          (((((u.latchRaise c cause).setWatch none).setEngine .armed).notify .wake 1 (word c)
            0xFFFF).syncSilence).runEvaluate) ∧
      ∀ i, u.gateAt i =
        if s.hasKind i .heater then { s.gateAt i with forceOffDue := true, deferred := false } else s.gateAt i

/-- A raise in CONFIG or CHECKING, or in WATCH of a class that is not watch-enabled, changes nothing; a containment raise
while containment is engaged only counts, and so does a raise into PENDING, RECOVERING or FAILED, each held at 255. A raise
into CLEAR or RESOLVED makes the latch PENDING with its cause as first cause, the count 1 or one more: an enabled class
queues FAULT_LATCHED with the cause's time; every record in the cause's zone without a fault overlap receives one; and for an
enabled class the executor then evaluates. In WATCH a raise of a watch-enabled class is taken, and the engine returns to
ARMED with the notice WAKE. -/
def Obligations.RaisesAreTakenCountedOrDropped : Prop :=
  ∀ (s : State) (c : Nat) (cause : Cause),
    let counted := { s with contain := { s.contain with repeats := min 255 (s.contain.repeats + 1) } }
    let pendingWith := fun (n : Nat) (u : State) =>
      let on := (u.classAt c).enable
      let latched := u.setLatch c { state := .pending, count := n, firstCause := some cause, ending := none }
      let notice : Notice := { kind := .faultLatched, time := cause.time, a := word c, b := optHalf cause.zone,
                               c := word cause.source.code, overflowed := false }
      let noticed := if on then latched.setNotices (pushNotice u.notices notice) else latched
      let marked := match cause.zone with
        | some z =>
          let mark := fun (r : Rack) =>
            if u.tables.inZone z (r.centre u.journal.travel) = true ∧ r.overlap = none then
              { r with overlap := some { cls := c, zone := z, time := cause.time } }
            else r
          noticed.setJournal { u.journal with racks := u.journal.racks.map mark }
        | none => noticed
      if on then marked.runEvaluate else marked
    (s.mgmt.engine = .config ∨ s.mgmt.engine = .checking → s.raise c cause = s) ∧
    (s.mgmt.engine = .watch → (s.classAt c).watch = false → s.raise c cause = s) ∧
    (s.mgmt.engine = .armed → c ≤ 2 → s.contain.engaged = true → s.raise c cause = counted) ∧
    (s.mgmt.engine = .armed → 3 ≤ c → s.raise c cause = s.latchRaise c cause) ∧
    (∀ taken, s.mgmt.engine = .watch → (s.classAt c).watch = true →
      (3 ≤ c ∧ taken = s.latchRaise c cause) ∨ (c ≤ 2 ∧ s.contain.engaged = true ∧ taken = counted) →
      s.raise c cause =
        ((((taken.setWatch none).setEngine .armed).notify .wake 1 (word c) 0xFFFF).syncSilence).runEvaluate) ∧
    (∀ u : State,
      ((u.latchAt c).state = .pending ∨ (u.latchAt c).state = .recovering ∨ (u.latchAt c).state = .failed →
        u.latchRaise c cause = u.setLatch c { u.latchAt c with count := min 255 ((u.latchAt c).count + 1) }) ∧
      ((u.latchAt c).state = .clear → u.latchRaise c cause = pendingWith 1 u) ∧
      ((u.latchAt c).state = .resolved →
        u.latchRaise c cause = pendingWith (min 255 ((u.latchAt c).count + 1)) u)) ∧
    (s.mgmt.engine = .armed → 3 ≤ c → c < 12 → (s.latchAt c).state = .clear →
      ((s.raise c cause).latchAt c).count = 1 ∧ ((s.raise c cause).latchAt c).firstCause = some cause ∧
      ((s.classAt c).enable = false → cause.zone = none →
        s.raise c cause =
          s.setLatch c { state := .pending, count := 1, firstCause := some cause, ending := none }))

/-- The running level's step begins: what a step of each kind but END_OK and END_FAIL does to its level; when a SET, DRAIN or
REFILL fails, with which reason and where the level then goes, FAIL included (a SET that meets both refusals fails with
PROTECTED, log entry 26); the order that SET, HOLD_LINE, RUN_LINE, DRAIN and REFILL place or make wait for room, which takes
its channel for the level from a queued or waiting hand-back, replay or gated order (a replay whose slot is not REPLAY_DUE
leaves the slot, log entry 30); LOCKOUT, which answers a waiting controller frame as it becomes held; RELEASE and
RELEASE_LINE give channels up, RELEASE_LINE with the level's cap gone before the replay is decided (log entry 17); CHECK
branches without a notice; and an absent slot fails with BAD_STEP and ends the level as END_FAIL does. -/
def Obligations.PlanStepsBegin : Prop :=
  ∀ (s : State) (below : List Level) (l : Level), s.levels = below ++ [l] →
    let d := below.length
    let next := fun (x : Level) (u : State) =>
      u.setLevels (below ++ [{ x with step := x.step + 1, wait := .none, tankPhase := 0, deadline := none,
                                      justBegun := true }])
    let wait := fun (x : Level) (k : WaitKind) (t : Option Clock) (u : State) =>
      u.setLevels (below ++ [{ x with wait := k, tankPhase := 0, deadline := t, justBegun := true }])
    let failed := fun (code : Half) (t : Nat) =>
      microStep .startStep s = (some .startStep, (s.notify .stepFailed (word l.cls) (word l.step) code).setLevels
        (below ++ [{ l with step := t, wait := .none, tankPhase := 0, deadline := none, justBegun := true }]))
    let ended := fun (notified : State) =>
      ∃ u, State.LevelFails d l (wait l .none none notified) u ∧ microStep .startStep s = (some .afterEnd, u)
    let refused := fun (target : Option Nat) (code : Half) =>
      (∀ t, target = some t → failed code t) ∧
      (target = none → ended (s.notify .stepFailed (word l.cls) (word l.step) code))
    let masked := fun (i : Nat) => ∃ e, s.routeAt i = some e ∧ s.gate.planMask.getLsbD e.group = true
    let orders := fun (i : Nat) (v : Half) (phase : Nat) =>
      ∃ t, microStep .startStep s = (none, t) ∧ s.OrderPlaced below l i v phase t
    (s.planSlot l.plan l.step = none →
      ended (s.notify .stepFailed (word l.cls) (word l.step) 6) ∧
      (l.cls < 12 →
        (microStep .startStep s).2.levels.length = below.length ∧
        (microStep .startStep s).2.latchAt l.cls = { s.latchAt l.cls with state := .failed, ending := some .fail })) ∧
    ∀ sl, s.planSlot l.plan l.step = some sl →
      (l.step + 1 < 12 →
        (sl.kind = .capLine → microStep .startStep s = (some .startStep, next { l with cap := some sl.value.toNat } s)) ∧
        (sl.kind = .notify →
          microStep .startStep s =
            (some .startStep, next l (s.notify .planNote (word l.cls) (half 0 sl.subject) sl.value))) ∧
        (sl.kind = .mark →
          microStep .startStep s = (some .startStep, next l (s.markRerun sl.subject.toNat sl.value.toNat))) ∧
        (sl.kind = .lockout → sl.value = 0 →
          microStep .startStep s = (some .startStep, next { l with lockout := false } s)) ∧
        (sl.kind = .lockout → sl.value ≠ 0 →
          let held := s.levels.any (·.lockout)
          let locks := fun (u : State) => microStep .startStep s = (some .startStep, next { l with lockout := true } u)
          let answers := fun (f : Sys2Proof.Frame) => locks ((s.setWaiting none).reply f)
          (held = true ∨ s.arbiter.waiting = none → locks s) ∧
          ∀ c, held = false → s.arbiter.waiting = some c →
            (c.kind = .transparent → locks s) ∧
            (∀ i w, c.kind = .order i w → answers (gateAck c.req 4 (s.imageAt i).applied)) ∧
            (∀ i p, c.kind = .protectedPoll i p → answers (gateAck c.req 3 (s.imageAt i).applied)) ∧
            ∀ i r, c.kind = .poll i → s.routeAt i = some r →
              let image := s.imageAt i
              (r.kind.isSensor = true →
                answers (match image.status with
                  | .fresh => imageReading c.req image.value 0
                  | .stale => imageReading c.req image.value 1
                  | .bad => imageReading c.req image.value 1
                  | .never => imageReading c.req 0 5)) ∧
              (r.kind.isSensor = false → answers (imageReading c.req image.applied 0))) ∧
        (sl.kind = .check → (∀ g e, g < 48 → s.sigAt g = some e → e.cls = l.cls → (s.runAt g).last ≠ .hit) →
          microStep .startStep s = (some .startStep, next l s)) ∧
        (sl.kind = .waitTime → sl.timeout = 0 → microStep .startStep s = (some .startStep, next l s)) ∧
        (∀ i, (sl.kind = .release ∧ i = sl.subject.toNat) ∨ (sl.kind = .releaseLine ∧ s.conveyorRef = some i) →
          let given : Level := { l with touched := l.touched.filter fun e => e.1 ≠ i,
                                        cap := if sl.kind = .releaseLine then none else l.cap }
          ((s.gateAt i).owner ≠ .level d → microStep .startStep s = (some .startStep, next given s)) ∧
          ((s.gateAt i).owner = .level d →
            let u := (s.setLevels (below ++ [given])).passOn i d
            microStep .startStep s =
              (some .startStep, u.setLevels (u.levels.dropLast ++
                [{ given with step := l.step + 1, wait := .none, tankPhase := 0, deadline := none,
                              justBegun := true }]))))) ∧
      (∀ t, sl.kind = .check → sl.failTarget = some t →
        (∃ g e, g < 48 ∧ s.sigAt g = some e ∧ e.cls = l.cls ∧ (s.runAt g).last = .hit) →
        microStep .startStep s = (some .startStep, s.setLevels
          (below ++ [{ l with step := t, wait := .none, tankPhase := 0, deadline := none, justBegun := true }]))) ∧
      (sl.kind = .waitFor → sl.timeout = 0 → microStep .startStep s = (none, wait l .reading none s)) ∧
      (sl.kind = .waitFor → sl.timeout ≠ 0 →
        microStep .startStep s =
          (none, wait l .reading (some (s.time.clock + BitVec.ofNat 32 (10 * sl.timeout.toNat))) s)) ∧
      (sl.kind = .waitTime → sl.timeout ≠ 0 →
        microStep .startStep s =
          (none, wait l .time (some (s.time.clock + BitVec.ofNat 32 (10 * sl.timeout.toNat))) s)) ∧
      (∀ i, sl.kind = .holdLine → s.conveyorRef = some i → orders i 0 0) ∧
      (∀ i, sl.kind = .runLine → s.conveyorRef = some i → orders i sl.value 0) ∧
      (∀ r, sl.kind = .set → s.routeAt sl.subject.toNat = some r →
        (s.gate.planMask.getLsbD r.group = true → refused sl.failTarget 1) ∧
        (s.gate.planMask.getLsbD r.group = false → r.kind = .heater → sl.value ≠ 0 → s.contain.engaged = true →
          refused sl.failTarget 2) ∧
        (s.gate.planMask.getLsbD r.group = false → (r.kind ≠ .heater ∨ sl.value = 0 ∨ s.contain.engaged = false) →
          orders sl.subject.toNat sl.value 0)) ∧
      ∀ z, sl.kind = .drain ∨ sl.kind = .refill → s.zoneAt sl.subject.toNat = some z →
        let other := if sl.kind = .refill then z.drain else z.inlet
        let valve := if sl.kind = .refill then z.inlet else z.drain
        let barred := ∃ i, (z.heater = some i ∨ other = some i ∨ valve = some i) ∧ masked i
        (barred → refused sl.failTarget 1) ∧
        (¬ barred →
          (∀ i, z.heater = some i → orders i 0 1) ∧
          (∀ i, z.heater = none → other = some i → orders i 0 2) ∧
          ∀ i, z.heater = none → other = none → valve = some i → orders i 100 3)

/-- The cap in force is the smallest cap that any level holds, absent when none holds one. -/
def Obligations.CapInForceIsTheSmallest : Prop :=
  ∀ s : State,
    (s.capInForce = none ↔ ∀ l ∈ s.levels, l.cap = none) ∧
    ∀ n, s.capInForce = some n ↔
      (∃ l ∈ s.levels, l.cap = some n) ∧ ∀ l ∈ s.levels, ∀ m, l.cap = some m → n ≤ m

/-- Evaluation, pre-emption and resumption. In ARMED an evaluation takes the eligible latch of highest priority: with no
level, or with fewer than 3 and a running level of lower priority, it starts the plan of its SELECT cell, the running level
suspended first; a NONE cell fails the latch and leaves the levels; else the latch waits. The suspended level drops its wait
and its queued and waiting orders, whose places the room list fills, and its order on the line belongs to it no longer (log
entry 23). After a level's end an eligible latch that outranks the highest
suspended level starts, else that level resumes with its step beginning again, else the executor idles. -/
def Obligations.EvaluationStartsTheFirstEligible : Prop :=
  ∀ s : State,
    let open_ := fun (b : Nat) => (s.latchAt b).state = .pending ∧ (s.classAt b).enable = true
    let first := fun (c : Nat) => c < 12 ∧ open_ c ∧ ∀ b, b < c → ¬ open_ b
    let none_ := ∀ b, b < 12 → ¬ open_ b
    let failed := fun (c : Nat) =>
      (s.setLatch c { s.latchAt c with state := .failed, ending := some .noPlan }).notify .planEnded (word c) 3 0xFFFF
    let pushed := fun (c p : Nat) (u : State) =>
      ((u.setLevels (u.levels ++
        [{ cls := c, plan := p, step := 0, wait := .none, tankPhase := 0, deadline := none, touched := [],
           cap := none, lockout := false, justBegun := true }])).setLatch c
        { s.latchAt c with state := .recovering }).notify .planStarted (word c) (word p) (word s.levels.length)
    let starts := fun (c : Nat) (task : Task) =>
      (∀ p, s.selectCell c s.ports.phase = some p → microStep task s = (some .startStep, pushed c p s)) ∧
      (s.selectCell c s.ports.phase = none → microStep task s = (some task, failed c))
    (s.mgmt.engine ≠ .armed ∨ none_ → microStep .evaluate s = (none, s)) ∧
    (∀ c, s.mgmt.engine = .armed → first c → s.levels = [] → starts c .evaluate) ∧
    (∀ c below l, s.mgmt.engine = .armed → first c → s.levels = below ++ [l] →
      (l.cls ≤ c ∨ 3 ≤ s.levels.length → microStep .evaluate s = (none, s)) ∧
      (c < l.cls → s.levels.length < 3 →
        (s.selectCell c s.ports.phase = none → microStep .evaluate s = (some .evaluate, failed c)) ∧
        ∀ p, s.selectCell c s.ports.phase = some p →
          ∃ u, State.RoomFills { s with
              levels := below ++ [{ l with wait := .none, tankPhase := 0, deadline := none }]
              arbiter := { s.arbiter with
                queue := s.arbiter.queue.filter fun q => match q.origin with
                  | .plan d _ _ => d ≠ below.length
                  | _ => true
                room := s.arbiter.room.filter fun e => match e with
                  | .plan d _ _ _ => d ≠ below.length
                  | _ => true } } u ∧
            microStep .evaluate s = (some .startStep,
              pushed c p (({ u with
                ports := { u.ports with trans := u.ports.trans.map (NodeTrans.orphaned below.length) } }).notify
                  .planSuspended (word l.cls) (word l.step) (word c))))) ∧
    (∀ c, first c → s.levels = [] → starts c .afterEnd) ∧
    (∀ c below l, first c → s.levels = below ++ [l] → c < l.cls → starts c .afterEnd) ∧
    (∀ below l, s.levels = below ++ [l] → (none_ ∨ ∃ c, first c ∧ l.cls ≤ c) →
      microStep .afterEnd s = (some .startStep, s.notify .planResumed (word l.cls) (word l.step) 0xFFFF)) ∧
    (s.levels = [] → none_ → microStep .afterEnd s = (none, s))

/-- How the running level's waits and levels end. The end of its step's order: a DONE ACK completes SET, HOLD_LINE and
RUN_LINE; any other end fails a SET with REFUSED or NO_REPLY and places HOLD_LINE and RUN_LINE again; DRAIN and REFILL go
through their phases, a failure in phase 5 leaving 100 touched (log entry 15); an end that is not the awaited one changes
nothing. A reading that satisfies a WAIT_FOR completes it, one of the level channel shuts a tank step's valve, and no other
does anything, nor one at which the wait itself began (log entry 7, for WAIT_FOR, DRAIN and REFILL alike). END_OK, and step
11's completion, hand each owned channel on in ascending index, a replay decided while the ending level's cap still stands
(log entry 17); END_FAIL, and a fail target of FAIL, retain them; the latch settles, PLAN_ENDED is queued, the level goes, and
an order of it that is still on the line belongs to no level (log entry 23). A channel that passes on goes to the nearest
suspended level that lists it, its value re-sent, else to CONTROLLER with its held order replayed. -/
def Obligations.PlanWaitsAndLevelsEnd : Prop :=
  ∀ (s : State) (below : List Level) (l : Level) (sl : PlanSlot), s.levels = below ++ [l] →
    s.planSlot l.plan l.step = some sl →
    let d := below.length
    let goes := fun (x : Level) (step : Nat) (u : State) =>
      State.runTask (some .startStep, u.setLevels
        (below ++ [{ x with step := step, wait := .none, tankPhase := 0, deadline := none, justBegun := true }]))
    let failed := fun (x : Level) (code : Half) (u : State) => u.notify .stepFailed (word x.cls) (word x.step) code
    let code := fun (e : OrderEnd) => (if e = .noReply then 4 else 3 : Half)
    let owned := (List.range 64).filter fun i => decide ((s.gateAt i).owner = .level d)
    let handedBack := fun (u : State) => owned.foldl (fun u i => u.passOn i d) u
    let stopped := fun (x : Level) (u : State) => u.setLevels
      (below ++ [{ x with wait := .none, tankPhase := 0, deadline := none, justBegun := true }])
    let fails := fun (x : Level) (u t : State) =>
      ∃ w, State.LevelFails d x (stopped x u) w ∧ t = State.runTask (some .afterEnd, w)
    -- the end of the step's order
    (∀ d' st e, (d' ≠ d ∨ st ≠ l.step ∨ l.wait ≠ .ack) → s.planOrderEnded d' st e = s) ∧
    (l.wait = .ack → ∀ e,
      let ended := s.planOrderEnded d l.step e
      (sl.kind = .set ∨ sl.kind = .holdLine ∨ sl.kind = .runLine → e = .done → l.step + 1 < 12 →
        ended = goes l (l.step + 1) s) ∧
      (sl.kind = .set → e ≠ .done → (∀ t, sl.failTarget = some t → ended = goes l t (failed l (code e) s)) ∧
        (sl.failTarget = none → fails l (failed l (code e) s) ended)) ∧
      (∀ i, sl.kind = .holdLine → e ≠ .done → s.conveyorRef = some i → s.OrderPlaced below l i 0 0 ended) ∧
      (∀ i, sl.kind = .runLine → e ≠ .done → s.conveyorRef = some i → s.OrderPlaced below l i sl.value 0 ended) ∧
      ∀ z, sl.kind = .drain ∨ sl.kind = .refill → s.zoneAt sl.subject.toNat = some z →
        let other := if sl.kind = .refill then z.drain else z.inlet
        let valve := if sl.kind = .refill then z.inlet else z.drain
        (∀ i, e = .done → l.tankPhase = 1 → other = some i → s.OrderPlaced below l i 0 2 ended) ∧
        (∀ i, e = .done → (l.tankPhase = 1 ∧ other = none) ∨ l.tankPhase = 2 → valve = some i →
          s.OrderPlaced below l i 100 3 ended) ∧
        (e = .done → l.tankPhase = 3 →
          ended = s.setLevels (below ++ [{ l with
            wait := .reading
            tankPhase := 4
            deadline := if sl.kind = .refill then
                tankDeadline s.time.clock z.volume z.refillRate z.refillOffset sl.timeout.toNat
              else tankDeadline s.time.clock z.volume z.drainRate z.drainOffset sl.timeout.toNat
            justBegun := true }])) ∧
        (e = .done → l.tankPhase = 5 → l.step + 1 < 12 → ended = goes l (l.step + 1) s) ∧
        (e ≠ .done → l.tankPhase ≠ 5 →
          (∀ t, sl.failTarget = some t → ended = goes l t (failed l (code e) s)) ∧
          (sl.failTarget = none → fails l (failed l (code e) s) ended)) ∧
        ∀ i, e ≠ .done → l.tankPhase = 5 → valve = some i →
          let shut : Level := { l with touched := touch i 100 l.touched }
          (∀ t, sl.failTarget = some t → ended = goes shut t (failed l (code e) s)) ∧
          (sl.failTarget = none → fails shut (failed l (code e) s) ended)) ∧
    -- a reading, and the wait for it
    (∀ i v ok,
      let taken := s.executorReading i v ok
      (ok = false ∨ l.wait ≠ .reading ∨ l.justBegun = true → taken = s) ∧
      (l.wait = .reading → l.justBegun = false → ok = true → sl.kind = .waitFor →
        let holds := (sl.subject &&& 0x3F).toNat = i ∧
          (((sl.subject >>> 6).toNat = 0 ∧ sl.value.toNat < v.toNat) ∨
            ((sl.subject >>> 6).toNat = 1 ∧ v.toNat < sl.value.toNat) ∨ ((sl.subject >>> 6).toNat = 2 ∧ v = sl.value))
        (¬ holds → taken = s) ∧ (holds → l.step + 1 < 12 → taken = goes l (l.step + 1) s)) ∧
      ∀ z, l.wait = .reading → l.justBegun = false → ok = true → s.zoneAt sl.subject.toNat = some z →
        (sl.kind = .drain →
          (¬ (z.level = some i ∧ v.toNat ≤ z.emptyLevel) → taken = s) ∧
          ∀ k, z.level = some i → v.toNat ≤ z.emptyLevel → z.drain = some k → s.OrderPlaced below l k 0 5 taken) ∧
        (sl.kind = .refill →
          (¬ (z.level = some i ∧ z.operLevel ≤ v.toNat) → taken = s) ∧
          ∀ k, z.level = some i → z.operLevel ≤ v.toNat → z.inlet = some k → s.OrderPlaced below l k 0 5 taken)) ∧
    -- how a level ends
    (sl.kind = .endOk →
      microStep .startStep s = (some .afterEnd, (handedBack s).levelGone d l.cls true l.step)) ∧
    (sl.kind = .endFail → ∃ w, State.LevelFails d l s w ∧ microStep .startStep s = (some .afterEnd, w)) ∧
    (sl.kind = .check → sl.failTarget = none →
      (∃ g e, g < 48 ∧ s.sigAt g = some e ∧ e.cls = l.cls ∧ (s.runAt g).last = .hit) →
      ∃ w, State.LevelFails d l (stopped l s) w ∧ microStep .startStep s = (some .afterEnd, w)) ∧
    (sl.kind = .notify → l.step = 11 →
      microStep .startStep s = (some .afterEnd,
        (handedBack (stopped l (s.notify .planNote (word l.cls) (half 0 sl.subject) sl.value))).levelGone
          d l.cls true 12)) ∧
    -- a channel passes on
    ∀ i r, i < 64 → s.routeAt i = some r → (s.gateAt i).owner = .level d →
      let lists := fun (k : Nat) (v : Half) => ∃ x, s.levels[k]? = some x ∧ touchedValue i x.touched = some v
      (∀ k v, k < d → lists k v → (∀ m w, k < m → m < d → ¬ lists m w) →
        ∃ u, State.OwnerChanges i (.level k) s u ∧
          (u.arbiter.queue.length < 16 →
            s.passOn i d = (u.orderAtTail r v (.handBack i)).modGate i fun g => { g with handBack := none }) ∧
          (16 ≤ u.arbiter.queue.length →
            s.passOn i d =
              (u.modGate i fun g => { g with handBack := some v }).setRoom (u.arbiter.room ++ [.handBack i]))) ∧
      ((∀ m w, m < d → ¬ lists m w) →
        ∃ u, State.OwnerChanges i .controller s u ∧
          ((∀ w, (u.gateAt i).held ≠ .held w) → s.passOn i d = u) ∧
          ∀ w, (u.gateAt i).held = .held w →
            let due := u.modGate i fun g => { g with held := .replayDue w }
            (u.arbiter.queue.length < 16 → s.gate.ctlMask.getLsbD r.group = true →
              s.passOn i d = u.modGate i fun g => { g with held := .empty }) ∧
            (u.arbiter.queue.length < 16 → s.gate.ctlMask.getLsbD r.group = false →
              s.passOn i d = due.orderAtTail r (s.gateValue i r w) (.replay i)) ∧
            (16 ≤ u.arbiter.queue.length → s.passOn i d = due.setRoom (u.arbiter.room ++ [.replay i])))

/-! ### The C-port -/

/-- Malformed characters set BAD_C on the C-port and BAD_N on the N-port, and a well-formed frame that is no open
transaction's reply sets STRAY; a transaction whose timeout has not expired goes on waiting after either. -/
def Obligations.StrayAndMalformedFramesSetTheirFlag : Prop :=
  ∀ (s : State) (bytes : List Byte) (f : Sys2Proof.Frame),
    (parseFrame bytes = none →
      exec (.malformedFrame .cPort bytes) s = .next (s.setSticky { s.ports.sticky with badC := true }) ∧
      (s.ports.trans = none →
        exec (.malformedFrame .nPort bytes) s = .next (s.setSticky { s.ports.sticky with badN := true })) ∧
      (∀ t, s.ports.trans = some t → t.expired = false →
        exec (.malformedFrame .nPort bytes) s =
          .next ((s.setSticky { s.ports.sticky with badN := true }).setTrans (some { t with begun := false })))) ∧
    (f.malformed = false →
      (s.ports.trans = none → exec (.stray f) s = .next (s.setSticky { s.ports.sticky with stray := true })) ∧
      (∀ t, s.ports.trans = some t → t.isReply f = false → t.expired = false →
        exec (.stray f) s =
          .next ((s.setSticky { s.ports.sticky with stray := true }).setTrans (some { t with begun := false }))))

/-- A well-formed controller frame, whatever command it is: while a transaction is open it only sets OVERRUN; with none
open, from another source, for 0 or 61, of a kind other than PHASE for 63, or of kind PHASE for any other address, it
changes nothing. -/
def Obligations.FramesThatAreNotAccepted : Prop :=
  ∀ (c : Instr) (f : Sys2Proof.Frame) (s : State), c.controllerFrame = some f → f.malformed = false →
    (s.ports.cport ≠ .idle → exec c s = .next (s.setSticky { s.ports.sticky with overrun := true })) ∧
    (s.ports.cport = .idle →
      (f.src ≠ 61 ∨ f.dst = 0 ∨ f.dst = 61 ∨ (f.dst = 63 ∧ f.kind ≠ Kind.phase) ∨
        (f.dst ≠ 63 ∧ f.kind = Kind.phase)) →
      exec c s = .next s)

/-- A gated order: in CONFIG and CHECKING step 4 alone, in ARMED, and in WATCH without wake-on-traffic, protection, lockout,
ownership, then heater inhibit, clamp and cap; one that is let through waits for the N-side. Here no replay of the channel is
due, queued or waiting for room: the next statement is of one that is. -/
def Obligations.GatedOrdersAreDecided : Prop :=
  (∀ (s : State) (node chan seq : Byte) (v : Half) (i : Nat) (r : RouteEntry),
    s.ports.cport = .idle → isNode node = true → s.mgmt.engine = .config ∨ s.mgmt.engine = .checking →
    s.findRoute node chan = some (i, r) → r.kind.isActuator = true → (∀ w, (s.gateAt i).held ≠ .replayDue w) →
    (∀ q ∈ s.arbiter.queue, q.origin ≠ .replay i) → (∀ e ∈ s.arbiter.room, e ≠ .replay i) →
    exec (.controllerOrder node chan v seq) s =
      .next (s.opened.setWaiting (some { req := orderFrame node chan v seq,
                                         kind := .order i (if r.kind = .heater ∧ s.contain.engaged = true then 0
                                                           else v) }))) ∧
  ∀ (s : State) (node chan seq : Byte) (v : Half) (i : Nat) (r : RouteEntry),
    s.ports.cport = .idle → isNode node = true →
    s.mgmt.engine = .armed ∨ (s.mgmt.engine = .watch ∧ s.time.wakeOnTraffic = false) →
    s.findRoute node chan = some (i, r) → r.kind.isActuator = true →
    let f := orderFrame node chan v seq
    let masked := s.gate.ctlMask.getLsbD r.group
    let locked := s.levels.any (·.lockout)
    let ack := fun (status : Byte) (u : State) => u.reply (gateAck f status (s.imageAt i).applied)
    let v₁ : Half := if r.kind = .heater ∧ s.contain.engaged = true then 0 else v
    let v₂ : Half := if v₁.toNat < r.clampMin then word r.clampMin else if r.clampMax < v₁.toNat then word r.clampMax
      else v₁
    let v₃ : Half := match s.capInForce with
      | some cap => if s.conveyorRef = some i ∧ cap < v₂.toNat then word cap else v₂
      | none => v₂
    (masked = true → locked = true → exec (.controllerOrder node chan v seq) s = .next (ack 3 s.opened)) ∧
    (masked = true → locked = false → exec (.controllerOrder node chan v seq) s =
      .next ((s.opened.setWaiting (some { req := f,
                                          kind := .protectedPoll i { dst := r.node, src := 62, kind := Kind.poll,
                                                                     flags := { engine := true },
                                                                     seq := s.ports.engineSeq,
                                                                     payload := [chan] } })).bumpSeq)) ∧
    (masked = false → locked = true → exec (.controllerOrder node chan v seq) s = .next (ack 4 s.opened)) ∧
    (masked = false → locked = false → (s.gateAt i).owner ≠ .controller →
      exec (.controllerOrder node chan v seq) s =
        .next (ack 2 (s.opened.modGate i fun g => { g with held := .held v }))) ∧
    (masked = false → locked = false → (s.gateAt i).owner = .controller → (∀ w, (s.gateAt i).held ≠ .replayDue w) →
      (∀ q ∈ s.arbiter.queue, q.origin ≠ .replay i) → (∀ e ∈ s.arbiter.room, e ≠ .replay i) →
      exec (.controllerOrder node chan v seq) s =
        .next (s.opened.setWaiting (some { req := f, kind := .order i v₃ })))

/-- A gated order that is let through empties a REPLAY_DUE slot and removes every replay of the channel, queued or waiting
for room, also one whose slot was emptied before; it becomes the controller frame with the value of steps 4 and 5, in CONFIG
and CHECKING of step 4 alone. The other queued frames keep their order, where a replay goes the room list fills the places,
and nothing else changes. -/
def Obligations.LetThroughSupersedesTheReplay : Prop :=
  ∀ (s : State) (node chan seq : Byte) (v : Half) (i : Nat) (r : RouteEntry),
    s.ports.cport = .idle → isNode node = true → s.findRoute node chan = some (i, r) → r.kind.isActuator = true →
    let gated := s.mgmt.engine = .armed ∨ s.mgmt.engine = .watch
    (s.mgmt.engine = .watch → s.time.wakeOnTraffic = false) →
    (gated → s.gate.ctlMask.getLsbD r.group = false ∧ s.levels.any (·.lockout) = false ∧
      (s.gateAt i).owner = .controller) →
    let v₁ : Half := if r.kind = .heater ∧ s.contain.engaged = true then 0 else v
    let v₂ : Half := if v₁.toNat < r.clampMin then word r.clampMin else if r.clampMax < v₁.toNat then word r.clampMax
      else v₁
    let v₃ : Half := match s.capInForce with
      | some cap => if s.conveyorRef = some i ∧ cap < v₂.toNat then word cap else v₂
      | none => v₂
    let kept : HeldSlot := match (s.gateAt i).held with
      | .replayDue _ => .empty
      | h => h
    let queue := s.arbiter.queue.filter fun q => decide (q.origin ≠ .replay i)
    let waiting := fun (u : Half) => some { req := orderFrame node chan v seq, kind := CtlKind.order i u : CtlFrame }
    let freed := ((s.opened.modGate i fun g => { g with held := kept }).setQueue queue).setRoom
      (s.arbiter.room.filter fun e => decide (e ≠ .replay i))
    ∃ t, exec (.controllerOrder node chan v seq) s = .next t ∧ (t.gateAt i).held = kept ∧
      (gated → t.arbiter.waiting = waiting v₃) ∧ (¬ gated → t.arbiter.waiting = waiting v₁) ∧
      queue <+: t.arbiter.queue ∧ (∀ q ∈ t.arbiter.queue, q.origin ≠ .replay i) ∧
      (∀ e ∈ t.arbiter.room, e ≠ .replay i) ∧
      ((∀ q ∈ s.arbiter.queue, q.origin ≠ .replay i) → (∀ e ∈ s.arbiter.room, e ≠ .replay i) →
        t = freed.setWaiting t.arbiter.waiting) ∧
      ((∃ q ∈ s.arbiter.queue, q.origin = .replay i) ∨ RoomEntry.replay i ∈ s.arbiter.room →
        ∃ u, State.RoomFills freed u ∧ t = u.setWaiting t.arbiter.waiting) ∧
      ((∀ e ∈ s.arbiter.room, e = .replay i) → t = (freed.setRoom []).setWaiting t.arbiter.waiting)

/-- A routed POLL waits for the N-side, or under lockout is answered at once from the image. -/
def Obligations.RoutedPollWaitsOrIsAnswered : Prop :=
  ∀ (s : State) (node chan seq : Byte) (i : Nat) (r : RouteEntry),
    s.ports.cport = .idle → isNode node = true → s.findRoute node chan = some (i, r) →
    let f := pollFrame node chan seq
    let answer := fun (value : Half) (status : Byte) =>
      exec (.controllerPoll node chan seq) s = .next (s.opened.reply (imageReading f value status))
    (s.levels.any (·.lockout) = false →
      exec (.controllerPoll node chan seq) s = .next (s.opened.setWaiting (some { req := f, kind := .poll i }))) ∧
    (s.levels.any (·.lockout) = true →
      (r.kind.isSensor = true → (s.imageAt i).status = .fresh → answer (s.imageAt i).value 0) ∧
      (r.kind.isSensor = true → (s.imageAt i).status = .stale → answer (s.imageAt i).value 1) ∧
      (r.kind.isSensor = true → (s.imageAt i).status = .bad → answer (s.imageAt i).value 1) ∧
      (r.kind.isSensor = true → (s.imageAt i).status = .never → answer 0 5) ∧
      (r.kind.isSensor = false → answer (s.imageAt i).applied 0))

/-- A controller frame to a node that is of another kind, of another LEN, or unrouted waits for the N-side as it came. An
ORDER for a routed sensor does too. -/
def Obligations.TransparentFrameWaits : Prop :=
  ∀ (s : State) (f : Sys2Proof.Frame), s.ports.cport = .idle → f.malformed = false → f.src = 61 →
    isNode f.dst = true → f.kind ≠ Kind.phase →
    (f.kind = Kind.order → s.mgmt.engine ≠ .watch ∧
      (f.payload.length ≠ 3 ∨ ∀ i r, s.findRoute f.dst f.chan = some (i, r) → r.kind.isSensor = true)) →
    (f.kind = Kind.poll → f.payload.length ≠ 1 ∨ s.findRoute f.dst f.chan = none) →
    exec (.transparentFrame f) s = .next (s.opened.setWaiting (some { req := f, kind := .transparent }))

/-- In WATCH with wake-on-traffic chosen, an accepted ORDER to a node, gated or transparent, first ends WATCH: no watch
deadline, ARMED, the notice WAKE with cause 3, the silence timer as its conditions say, the executor's evaluation. It is then
decided as in ARMED: what it leaves is what the same frame leaves where it finds the part in ARMED like that. (No controller
frame waits and no silence deadline stands in WATCH, as the invariants say.) -/
def Obligations.TrafficEndsWatch : Prop :=
  ∀ (s : State) (f : Sys2Proof.Frame) (node chan seq : Byte) (v : Half), s.ports.cport = .idle →
    s.mgmt.engine = .watch → s.time.wakeOnTraffic = true →
    let awake :=
      (((((s.opened.setWatch none).setEngine .armed).notify .wake 3 0xFFFF 0xFFFF).syncSilence).runEvaluate).setCPort .idle
    awake.mgmt.engine = .armed ∧
    (isNode node = true →
      (s.arbiter.waiting = none → s.time.silence = none →
        exec (.controllerOrder node chan v seq) s = exec (.controllerOrder node chan v seq) awake) ∧
      ∃ t, exec (.controllerOrder node chan v seq) s = .next t ∧ t.mgmt.engine = .armed ∧ t.time.watchDeadline = none) ∧
    (f.malformed = false → f.src = 61 → isNode f.dst = true → f.kind = Kind.order →
      (s.arbiter.waiting = none → s.time.silence = none →
        exec (.transparentFrame f) s = exec (.transparentFrame f) awake) ∧
      ∃ t, exec (.transparentFrame f) s = .next t ∧ t.mgmt.engine = .armed ∧ t.time.watchDeadline = none)

/-- PHASE opens no transaction; it sets the tracked phase or BAD_PHASE and joins the injected-frame queue when it has
room. -/
def Obligations.PhaseIsTrackedAndForwarded : Prop :=
  ∀ (s : State) (seq : Byte), s.ports.cport = .idle →
    let a := s.restartSilence.setPrefix false
    let forward := fun (payload : List Byte) (u : State) =>
      if u.arbiter.queue.length < 16 then
        u.setQueue (u.arbiter.queue ++
          [{ frame := { dst := 63, src := 61, kind := Kind.phase, flags := {}, seq := seq, payload := payload },
             origin := .phase }])
      else u
    (∀ p ph, Phase.ofCode p.toNat = some ph →
      exec (.phase seq [p]) s =
        .next (forward [p] (if s.ports.phase = ph then a else (a.setPhase ph).syncSilence))) ∧
    (∀ payload, payload.length ≤ 16 → (∀ p ph, payload = [p] → Phase.ofCode p.toNat ≠ some ph) →
      exec (.phase seq payload) s =
        .next (forward payload (a.setSticky { s.ports.sticky with badPhase := true })))

/-- A PREFIX sets prefix-armed and is answered OK with code echo 0. A frame for 62 of an unknown kind, a MGMT_REQ of LEN 0
and one with an unknown code are answered UNKNOWN. -/
def Obligations.PrefixAndUnknownFramesAreAnswered : Prop :=
  ∀ (s : State) (seq : Byte) (payload : List Byte), s.ports.cport = .idle → payload.length ≤ 16 →
    exec (.prefixFrame seq payload) s = .next ((s.opened.setPrefix true).mgmtAnswer seq 0 .ok []) ∧
    (∀ kind, kind ≠ Kind.phase → kind ≠ Kind.prefixKind → kind ≠ Kind.mgmtReq →
      exec (.mgmtUnknown kind seq payload) s = .next (s.opened.mgmtAnswer seq 0 .unknown [])) ∧
    (payload = [] →
      exec (.mgmtUnknown Kind.mgmtReq seq payload) s = .next (s.opened.mgmtAnswer seq 0 .unknown [])) ∧
    (∀ code args, payload = code :: args → Request.ofCode code.toNat = none →
      exec (.mgmtUnknown Kind.mgmtReq seq payload) s = .next (s.opened.mgmtAnswer seq code .unknown []))

/-! ### Management requests -/

/-- The tests of R152 from NOT_PREFIXED to BAD_VALUE, for every request: the refusal changes nothing but what acceptance
and the reply do. -/
def Obligations.RequestsAreTestedInOrder : Prop :=
  ∀ (c : Instr) (r : Request) (seq : Byte) (args : List Byte) (s : State), c.request = some (r, seq, args) →
    args.length ≤ 15 → s.ports.cport = .idle →
    (r.guarded = true → s.mgmt.prefixArmed = false →
      exec c s = .next (s.opened.mgmtAnswer seq r.code .notPrefixed [])) ∧
    (r.guarded = true → s.mgmt.prefixArmed = true → s.mgmt.engine = .checking → r ≠ .softReset →
      exec c s = .next (s.opened.mgmtAnswer seq r.code .busy [])) ∧
    ((r.guarded = true → s.mgmt.prefixArmed = true ∧ (s.mgmt.engine ≠ .checking ∨ r = .softReset)) →
      args.length < r.minArgs args → exec c s = .next (s.opened.mgmtAnswer seq r.code .badValue []))

/-- STATUS answers OK with its 14 bytes and clears the sticky flags, and does not write the last result (bits without a
field are sent as 0, log entry 28); NOTICE_FETCH removes and returns the oldest notice, or answers EMPTY. A notice that finds
16 queued is discarded, and marks the newest of them. -/
def Obligations.StatusAndNoticeFetch : Prop :=
  (∀ (s : State) (seq : Byte) (args : List Byte), s.Reaches .status args →
    let contained : Byte := (if s.contain.engaged then 0x80 else 0) ||| (match s.contain.firstCause with
      | some f => byte (16 * (f.cls % 4)) ||| byte (f.zone.getD 15 % 16)
      | none => 15)
    let sticky : Byte := (if s.ports.sticky.overrun then 1 else 0) ||| (if s.ports.sticky.badC then 2 else 0) |||
      (if s.ports.sticky.badN then 4 else 0) ||| (if s.ports.sticky.stray then 8 else 0) |||
      (if s.ports.sticky.badPhase then 16 else 0)
    ∃ summary : Half,
      (∀ n, n < 16 → summary.getLsbD n =
        (decide (n < 12) && decide ((s.latchAt n).state = .pending) && (s.classAt n).enable)) ∧
      exec (.status seq args) s =
        .next ((s.opened.setSticky Sticky.reset).reply
          { dst := 61, src := 62, kind := Kind.mgmtReply, seq := seq,
            payload := [0x01, 0, byte (16 * s.mgmt.engine.code + s.ports.phase.code), contained,
              optByte ((s.levels[0]?).map (·.cls)), optByte ((s.levels[1]?).map (·.cls)),
              optByte ((s.levels[2]?).map (·.cls)), hiByte summary, loByte summary, byte s.journal.racks.length,
              byte s.notices.length, optByte (s.mgmt.lastResult.map Result.code),
              byte (16 * s.mgmt.detail.table + s.mgmt.detail.reason.code), byte s.mgmt.detail.index,
              byte s.mgmt.detail.sub, sticky] })) ∧
  (∀ (s : State) (seq : Byte) (args : List Byte), s.Reaches .noticeFetch args →
    (s.notices = [] → exec (.noticeFetch seq args) s = .next (s.opened.mgmtAnswer seq 0x02 .empty [])) ∧
    ∀ n rest, s.notices = n :: rest →
      exec (.noticeFetch seq args) s =
        .next ((s.opened.setNotices rest).mgmtAnswer seq 0x02 .ok
          ((byte n.kind.code ||| (if n.overflowed then 0x80 else 0)) :: bytes4 n.time ++ bytes2 n.a ++ bytes2 n.b ++
            bytes2 n.c ++ [byte rest.length]))) ∧
  ∀ (s : State) (k : NoticeKind) (a b c : Half),
    (s.notices.length < 16 →
      s.notify k a b c = { s with notices := s.notices ++
        [{ kind := k, time := s.time.clock, a := a, b := b, c := c, overflowed := false }] }) ∧
    ∀ older newest, s.notices = older ++ [newest] → older.length = 15 →
      s.notify k a b c = { s with notices := older ++ [{ newest with overflowed := true }] }

/-- RACK_READ returns a page of the record named by index or by tag, its bytes high byte first, absent fields with every bit
set and bits without a field 0 (log entry 28); a record that is not there is BAD_INDEX, a mode above 1 and a page above 5
BAD_VALUE. An empty journal is BAD_INDEX whatever the mode, and a credit entry past the list has every bit set (log entry
12). The centre field is stated for centres up to 32767 (log entry 12). -/
def Obligations.RackReadNamesARecord : Prop :=
  ∀ (s : State) (seq kh kl page : Byte), s.ports.cport = .idle →
    let data := fun (k : Nat) (r : Rack) (p : Nat) =>
      let centre := r.centre s.journal.travel
      let credit := fun (n : Nat) => match r.credits[n]? with
        | some c =>
          (byte (c.zone % 8) ||| (if c.gap then 0x80 else 0)) :: (bytes2 (word c.heat) ++ bytes2 (word c.action))
        | none => [0xFF, 0xFF, 0xFF, 0xFF, 0xFF]
      if p = 0 then
        byte k :: bytes2 (word r.tag.toNat) ++
          [(match r.state with | .entering => (0 : Byte) | .inLine => 1 | .atExit => 2) |||
            (if r.merged then 0x10 else 0) ||| (if r.rerun then 0x20 else 0) |||
            (if r.overlap.isSome then 0x40 else 0)] ++
          bytes3 r.entryTravel ++ bytes2 (word (min (s.journal.travel - r.entryTravel).toNat 65535)) ++
          bytes2 (word (r.length.getD 0)) ++ bytes2 (BitVec.ofInt 16 centre) ++ [optByte (s.tables.zoneOf centre)]
      else if p = 1 then
        match r.overlap with
        | some o => byte o.cls :: byte o.zone :: bytes4 o.time ++ [byte r.credits.length]
        | none => [0xFF, 0xFF, 0xFF, 0xFF, 0xFF, 0xFF, byte r.credits.length]
      else credit (2 * (p - 2)) ++ credit (2 * (p - 2) + 1)
    let read := fun (mode : Byte) (res : Result) (bytes : List Byte) =>
      exec (.rackRead seq [mode, kh, kl, page]) s = .next (s.opened.mgmtAnswer seq 0x03 res bytes)
    (∀ r, s.journal.racks[(half kh kl).toNat]? = some r →
      (page.toNat ≤ 5 → (page = 0 → r.centre s.journal.travel ≤ 32767) →
        read 0 .ok (data (half kh kl).toNat r page.toNat)) ∧
      (5 < page.toNat → read 0 .badValue [])) ∧
    (s.journal.racks[(half kh kl).toNat]? = none → read 0 .badIndex []) ∧
    (∀ k r, s.journal.racks[k]? = some r → r.tag.toNat = (half kh kl).toNat →
      (∀ j q, j < k → s.journal.racks[j]? = some q → q.tag ≠ r.tag) →
      (page.toNat ≤ 5 → (page = 0 → r.centre s.journal.travel ≤ 32767) → read 1 .ok (data k r page.toNat)) ∧
      (5 < page.toNat → read 1 .badValue [])) ∧
    ((∀ r ∈ s.journal.racks, r.tag.toNat ≠ (half kh kl).toNat) → read 1 .badIndex []) ∧
    (∀ mode : Byte, s.journal.racks = [] → read mode .badIndex []) ∧
    ∀ mode : Byte, 1 < mode.toNat → s.journal.racks ≠ [] → read mode .badValue []

/-- LATCH_READ shows an enabled class's latch and a disabled one as CLEAR; CHANNEL_READ shows a present route entry with its
sensor or actuator data; absent fields have every bit set, and bits without a field are 0 (log entry 28). The held value of
an EMPTY slot is such an absent field by the model's reading (log entry 13); that LATCH_READ's bit 2 is 0 for classes 3 to 11
is its choice (log entry 31). An index that names none is BAD_INDEX. -/
def Obligations.LatchAndChannelReads : Prop :=
  ∀ (s : State) (seq b : Byte), s.ports.cport = .idle →
    let flags := bit (s.classAt b.toNat).enable 0 ||| bit (s.classAt b.toNat).watch 1 |||
      bit (b.toNat ≤ 2 && s.contain.engaged) 2
    let l := s.latchAt b.toNat
    let cause := fun (k : Option Cause) => match k with
      | some k =>
        (match k.source with | .signature g => byte g | .node => 0x80 | .silence => 0x81 | .track => 0x82) ::
          optByte k.zone :: (bytes2 (BitVec.ofInt 16 k.value) ++ bytes4 k.time)
      | none => List.replicate 8 0xFF
    let image := s.imageAt b.toNat
    let gate := s.gateAt b.toNat
    let channel := fun (r : RouteEntry) (data : List Byte) =>
      exec (.channelRead seq [b]) s =
        .next (s.opened.mgmtAnswer seq 0x05 .ok (byte r.kind.code :: r.node :: r.chan :: data))
    (b.toNat < 12 → (s.classAt b.toNat).enable = true →
      exec (.latchRead seq [b]) s =
        .next (s.opened.mgmtAnswer seq 0x04 .ok
          ([flags, match l.state with | .clear => 0 | .pending => 1 | .recovering => 2 | .resolved => 3 | .failed => 4,
              byte l.count] ++ cause l.firstCause ++
            [match l.ending with | none => (0 : Byte) | some .ok => 1 | some .fail => 2 | some .noPlan => 3]))) ∧
    (b.toNat < 12 → (s.classAt b.toNat).enable = false →
      exec (.latchRead seq [b]) s =
        .next (s.opened.mgmtAnswer seq 0x04 .ok ([flags, 0, 0] ++ List.replicate 8 0xFF ++ [0]))) ∧
    (12 ≤ b.toNat → exec (.latchRead seq [b]) s = .next (s.opened.mgmtAnswer seq 0x04 .badIndex [])) ∧
    (∀ r, s.routeAt b.toNat = some r → r.kind.isSensor = true →
      let shown := fun (status : Byte) (times : List Byte) =>
        channel r (bytes2 image.value ++ [status ||| (if image.keepPending then 0x80 else 0)] ++ times)
      (image.status = .never → shown 0 [0, 0, 0, 0, 0, 0]) ∧
      ∀ t, image.lastReading = some t →
        let times := bytes4 t ++ bytes2 (word (min 65535 (s.time.clock - t).toNat))
        (image.status = .fresh → shown 1 times) ∧ (image.status = .stale → shown 2 times) ∧
        (image.status = .bad → shown 3 times)) ∧
    (∀ r, s.routeAt b.toNat = some r → r.kind.isSensor = false →
      channel r (bytes2 image.applied ++
        [match gate.owner with | .controller => (0 : Byte) | .level d => byte (d + 1) | .retained => 4] ++
        (match gate.held with
          | .empty => [(0 : Byte), 0xFF, 0xFF]
          | .held v => 1 :: bytes2 v
          | .replayDue v => 2 :: bytes2 v) ++
        [(if gate.forceOffDue then (1 : Byte) else 0) ||| (if gate.deferred then 2 else 0), byte r.group])) ∧
    (s.routeAt b.toNat = none →
      exec (.channelRead seq [b]) s = .next (s.opened.mgmtAnswer seq 0x05 .badIndex []))

/-- TABLE_READ returns a committed entry's bytes, of a ZONE by halves, of a CURVE as SINGLE or by halves, of a PLAN slot with
its step; a CLASS entry is never absent; the RUN view is a signature's run state, its anchor with every bit set when absent.
An absent entry is EMPTY, an index, a step or a table that does not exist BAD_INDEX, a part or view the table has not
BAD_VALUE. EMPTY for a SELECT row never written, and the set bits of an absent anchor, are the model's reading (log entry 13);
that BAD_INDEX comes before BAD_VALUE is its choice (log entry 33). -/
def Obligations.TableReadReturnsEntries : Prop :=
  ∀ (s : State) (seq b step : Byte), s.ports.cport = .idle →
    let read := fun (tb : Byte) (res : Result) (data : List Byte) =>
      exec (.tableRead seq [tb, b]) s = .next (s.opened.mgmtAnswer seq 0x06 res data)
    let readRun := fun (tb : Byte) (res : Result) (data : List Byte) =>
      exec (.tableReadRun seq [tb, b]) s = .next (s.opened.mgmtAnswer seq 0x06 res data)
    let readStep := fun (res : Result) (data : List Byte) =>
      exec (.tableRead seq [0x80, b, step]) s = .next (s.opened.mgmtAnswer seq 0x06 res data)
    let run := s.runAt b.toNat
    (∀ l, b = 0 → s.tables.line = some l → read 0x10 .ok (encodeLine l)) ∧
    (b = 0 → s.tables.line = none → read 0x10 .empty []) ∧ (b ≠ 0 → read 0x10 .badIndex []) ∧
    (∀ r, b.toNat < 64 → s.routeAt b.toNat = some r → read 0x20 .ok (encodeRoute r)) ∧
    (b.toNat < 64 → s.routeAt b.toNat = none → read 0x20 .empty []) ∧
    (64 ≤ b.toNat → read 0x20 .badIndex []) ∧
    (∀ z, b.toNat < 8 → s.zoneAt b.toNat = some z →
      read 0x31 .ok (encodeZoneFirst z) ∧ read 0x32 .ok (encodeZoneLast z) ∧ read 0x30 .badValue []) ∧
    (b.toNat < 8 → s.zoneAt b.toNat = none →
      read 0x31 .empty [] ∧ read 0x32 .empty [] ∧ read 0x30 .badValue []) ∧
    (8 ≤ b.toNat → ∀ tb, tb = 0x30 ∨ tb = 0x31 ∨ tb = 0x32 ∨ tb = 0x40 ∨ tb = 0x41 ∨ tb = 0x42 → read tb .badIndex []) ∧
    (b.toNat < 8 → s.curveAt b.toNat = none → read 0x40 .empty [] ∧ read 0x41 .empty [] ∧ read 0x42 .empty []) ∧
    (∀ c, b.toNat < 8 → s.curveAt b.toNat = some c →
      read 0x40 .ok (encodeCurveFirst c) ∧ read 0x41 .ok (encodeCurveFirst c) ∧ read 0x42 .ok (encodeCurveLast c)) ∧
    (∀ e, b.toNat < 48 → s.sigAt b.toNat = some e → read 0x50 .ok (encodeSignature e)) ∧
    (b.toNat < 48 → s.sigAt b.toNat = none → read 0x50 .empty []) ∧ (48 ≤ b.toNat → read 0x50 .badIndex []) ∧
    (b.toNat < 12 → read 0x60 .ok (encodeClass (s.classAt b.toNat))) ∧
    (∀ r, b.toNat < 12 → s.tables.select[b.toNat]? = some (some r) → read 0x70 .ok (encodeSelect r)) ∧
    (b.toNat < 12 → s.tables.select[b.toNat]? = some none → read 0x70 .empty []) ∧
    (12 ≤ b.toNat → read 0x70 .badIndex []) ∧
    (∀ p, b.toNat < 24 → step.toNat < 12 → s.planSlot b.toNat step.toNat = some p →
      readStep .ok (encodePlanSlot step.toNat p)) ∧
    (b.toNat < 24 → step.toNat < 12 → s.planSlot b.toNat step.toNat = none → readStep .empty []) ∧
    (24 ≤ b.toNat ∨ 12 ≤ step.toNat → readStep .badIndex []) ∧
    (∀ n, n = 0x00 ∨ n = 0x90 → read n .badIndex []) ∧
    (∀ e, b.toNat < 48 → s.sigAt b.toNat = some e →
      readRun 0x54 .ok
        ([byte run.count, match run.last with | .none => 0 | .hit => 1 | .no => 2] ++
          (match run.anchor with
            | some (v, t) => 1 :: (bytes2 v ++ bytes4 t)
            | none => [0, 0xFF, 0xFF, 0xFF, 0xFF, 0xFF, 0xFF]))) ∧
    (b.toNat < 48 → s.sigAt b.toNat = none → readRun 0x54 .empty []) ∧
    (b.toNat < 12 → readRun 0x64 .badValue [])

/-- LEVEL_READ answers BAD_INDEX where no level exists, BAD_VALUE above page 11, page 0 of a level, and its touched pages.
The time remaining is given where it is a whole number of 100 ms units, held to 65535, and 0 once the deadline is reached (log
entry 5); absent entries have every bit set (log entry 12), bits without a field are 0 (log entry 28), and the touched entries stand
in the order the model keeps them in (log entry 32). -/
def Obligations.LevelReadShowsALevel : Prop :=
  ∀ (s : State) (seq d p : Byte), s.ports.cport = .idle →
    (s.levels[d.toNat]? = none →
      exec (.levelRead seq [d, p]) s = .next (s.opened.mgmtAnswer seq 0x07 .badIndex [])) ∧
    ∀ l, s.levels[d.toNat]? = some l →
      let page := fun (remaining : Half) (timed : Byte) =>
        exec (.levelRead seq [d, p]) s =
          .next (s.opened.mgmtAnswer seq 0x07 .ok
            [d ||| (if d.toNat + 1 = s.levels.length then 0x80 else 0), byte l.cls, byte l.plan, byte l.step,
             byte (16 * l.tankPhase) + (match l.wait with
               | .none => 0 | .ack => 1 | .reading => 2 | .time => 3 | .queueRoom => 4),
             hiByte remaining, loByte remaining, optByte l.cap, (if l.lockout then 1 else 0) ||| timed,
             byte l.touched.length])
      (11 < p.toNat → exec (.levelRead seq [d, p]) s = .next (s.opened.mgmtAnswer seq 0x07 .badValue [])) ∧
      (p = 0 → l.deadline = none → page 0xFFFF 0) ∧
      (∀ t, p = 0 → l.deadline = some t → (s.time.clock - t).toNat < 2 ^ 31 → page 0 2) ∧
      (∀ t, p = 0 → l.deadline = some t → 2 ^ 31 ≤ (s.time.clock - t).toNat → (t - s.time.clock).toNat % 10 = 0 →
        page (word (min 65535 ((t - s.time.clock).toNat / 10))) 2) ∧
      (1 ≤ p.toNat → p.toNat ≤ 11 →
        exec (.levelRead seq [d, p]) s =
          .next (s.opened.mgmtAnswer seq 0x07 .ok
            ((List.range 6).flatMap fun k => match l.touched[6 * (p.toNat - 1) + k]? with
              | some (i, v) => [byte i ||| (if (s.gateAt i).owner = .level d.toNat then 0x80 else 0), loByte v]
              | none => [0xFF, 0xFF])))

/-- The sequence lock: SEQ_LOCK turns it on for 50 units, SEQ_UNLOCK turns it off, and its deadline does, once reached. When a
deadline counts as reached is the model's choice (log entry 4), and so is it that SEQ_LOCK_EXPIRY before that, or with the
lock off, changes nothing (log entry 2). -/
def Obligations.SequenceLockHolds : Prop :=
  ∀ (s : State) (seq : Byte) (args : List Byte),
    (s.Reaches .seqLock args →
      exec (.seqLock seq args) s =
        .next ((s.opened.setLock (some (s.time.clock + 50))).mgmtAnswer seq 0x08 .ok [])) ∧
    (s.Reaches .seqUnlock args →
      exec (.seqUnlock seq args) s = .next ((s.opened.setLock none).mgmtAnswer seq 0x09 .ok [])) ∧
    (∀ d, s.gate.lock = some d → (s.time.clock - d).toNat < 2 ^ 31 →
      exec .seqLockExpiry s = .next (s.setLock none)) ∧
    ((∀ d, s.gate.lock = some d → 2 ^ 31 ≤ (s.time.clock - d).toNat) → exec .seqLockExpiry s = .next s)

/-- TABLE_WRITE of a SINGLE part: an entry that its ranges admit is committed with what its commit resets, any other is
BAD_VALUE, a pair held elsewhere is DUPLICATE (after BAD_VALUE by the model's choice, log entry 34). A CLASS commit, in CONFIG
or ARMED, that enables a class whose latch is PENDING queues FAULT_LATCHED with the commit's line time and the executor
evaluates; that it keeps the byte's ignored bits 7 to 2 is the model's choice (log entry 6). In order: a structural table
outside CONFIG, and any in WATCH, is NOT_LIVE; a table, an index or a step that does not exist is BAD_INDEX; a part the table
has not or a wrong length is BAD_VALUE, and so is table bit 3 or 2, which the model tests there (log entry 27). -/
def Obligations.SinglePartsAreCommitted : Prop :=
  ∀ (s : State) (seq idx : Byte) (data : List Byte),
    let write := fun (tb : Byte) (res : Result) (u : State) =>
      exec (.tableWrite seq (tb :: idx :: data)) s = .next (u.mgmtAnswer seq 0x10 res [])
    let o := s.opened
    (s.Reaches .tableWrite (0x10 :: idx :: data) → s.mgmt.engine = .config → idx = 0 → data.length = 12 →
      (∀ l, parseLine data = some l → write 0x10 .ok (o.setTables { s.tables with line := some l })) ∧
      (parseLine data = none → write 0x10 .badValue o)) ∧
    (s.Reaches .tableWrite (0x20 :: idx :: data) → s.mgmt.engine = .config → idx.toNat < 64 → data.length = 9 →
      (parseRoute data = none → write 0x20 .badValue o) ∧
      ∀ r, parseRoute data = some r →
        (∀ j e, j ≠ idx.toNat → s.routeAt j = some e → (e.node = r.node ∧ e.chan = r.chan) →
          write 0x20 .duplicate o) ∧
        ((∀ j e, j ≠ idx.toNat → s.routeAt j = some e → ¬ (e.node = r.node ∧ e.chan = r.chan)) →
          write 0x20 .ok (((o.setTables
            { s.tables with route := s.tables.route.setIfInBounds idx.toNat (some r) }).modImage idx.toNat fun c =>
              { ImageCell.reset with keepPending := c.keepPending }).modGate idx.toNat fun _ => GateCell.reset))) ∧
    (s.Reaches .tableWrite (0x40 :: idx :: data) → s.mgmt.engine = .config ∨ s.mgmt.engine = .armed → idx.toNat < 8 →
      data.length = 13 →
      (∀ c, parseCurveSingle data = some c →
        write 0x40 .ok (o.setTables { s.tables with curve := s.tables.curve.setIfInBounds idx.toNat (some c) })) ∧
      (parseCurveSingle data = none → write 0x40 .badValue o)) ∧
    (s.Reaches .tableWrite (0x50 :: idx :: data) → s.mgmt.engine = .config → idx.toNat < 48 → data.length = 13 →
      (∀ e, parseSignature data = some e →
        write 0x50 .ok ((o.setTables
          { s.tables with signature := s.tables.signature.setIfInBounds idx.toNat (some e) }).setRun idx.toNat
            { count := 0, last := .none, anchor := none })) ∧
      (parseSignature data = none → write 0x50 .badValue o)) ∧
    (∀ cb e, data = [cb] → s.Reaches .tableWrite (0x60 :: idx :: data) →
      s.mgmt.engine = .config ∨ s.mgmt.engine = .armed → idx.toNat < 12 →
      e = { enable := cb.getLsbD 0, watch := cb.getLsbD 1, ignored := cb.extractLsb' 2 6 } →
      let latch := s.latchAt idx.toNat
      let u := o.setTables { s.tables with cls := s.tables.cls.setIfInBounds idx.toNat e }
      (cb.getLsbD 0 = false ∨ (s.classAt idx.toNat).enable = true ∨ latch.state ≠ .pending → write 0x60 .ok u) ∧
      ∀ cause, cb.getLsbD 0 = true → (s.classAt idx.toNat).enable = false → latch.state = .pending →
        latch.firstCause = some cause →
        write 0x60 .ok
          ((u.setNotices (pushNotice s.notices
            { kind := .faultLatched, time := s.time.clock, a := word idx.toNat, b := optHalf cause.zone,
              c := word cause.source.code, overflowed := false })).runEvaluate)) ∧
    (s.Reaches .tableWrite (0x70 :: idx :: data) → s.mgmt.engine = .config → idx.toNat < 12 → data.length = 6 →
      (∀ r, parseSelect data = some r →
        write 0x70 .ok (o.setTables { s.tables with select := s.tables.select.setIfInBounds idx.toNat (some r) })) ∧
      (parseSelect data = none → write 0x70 .badValue o)) ∧
    (∀ st rest, data = st :: rest → s.Reaches .tableWrite (0x80 :: idx :: data) → s.mgmt.engine = .config →
      idx.toNat < 24 → st.toNat < 12 → data.length = 8 →
      (∀ p, parsePlanSlot data = some p →
        write 0x80 .ok (o.setTables
          { s.tables with plan := s.tables.plan.setIfInBounds (12 * idx.toNat + st.toNat) (some p) })) ∧
      (parsePlanSlot data = none → write 0x80 .badValue o)) ∧
    ∀ tb : Byte, s.Reaches .tableWrite (tb :: idx :: data) →
      (tb.toNat / 16 = 0 ∨ 9 ≤ tb.toNat / 16 → write tb .badIndex o) ∧
      ∀ (n size : Nat) (parts : List (Nat × Nat)),
        (n, size, parts) ∈ ([(1, 1, [(0, 12)]), (2, 64, [(0, 9)]), (3, 8, [(1, 13), (2, 12)]),
          (4, 8, [(0, 13), (1, 13), (2, 12)]), (5, 48, [(0, 13)]), (6, 12, [(0, 1)]), (7, 12, [(0, 6)]),
          (8, 24, [(0, 8)])] : List (Nat × Nat × List (Nat × Nat))) →
        tb.toNat / 16 = n →
        let live := s.mgmt.engine = .config ∨ (s.mgmt.engine = .armed ∧ (n = 4 ∨ n = 6))
        let outside := size ≤ idx.toNat ∨ (n = 8 ∧ ∃ st rest, data = st :: rest ∧ 12 ≤ st.toNat)
        (s.mgmt.engine = .watch ∨ (s.mgmt.engine = .armed ∧ n ≠ 4 ∧ n ≠ 6) → write tb .notLive o) ∧
        (live → outside → write tb .badIndex o) ∧
        (live → ¬ outside → 4 ≤ tb.toNat % 16 ∨ (tb.toNat % 4, data.length) ∉ parts → write tb .badValue o)

/-- A FIRST part is staged; a LAST part that matches it is joined, and committed or refused with the buffer emptied; one
that does not match changes nothing. -/
def Obligations.TwoPartEntriesAreStaged : Prop :=
  ∀ (s : State) (seq idx : Byte) (data first : List Byte) (z : ZoneEntry) (c : CurveEntry),
    (s.Reaches .tableWrite (0x31 :: idx :: data) → s.mgmt.engine = .config → idx.toNat < 8 → data.length = 13 →
      exec (.tableWriteFirst seq (0x31 :: idx :: data)) s =
        .next ((s.opened.setStaging (some { table := .zone, index := idx.toNat, data := data })).mgmtAnswer seq 0x10
          .ok [])) ∧
    (s.Reaches .tableWrite (0x41 :: idx :: data) → s.mgmt.engine = .config ∨ s.mgmt.engine = .armed →
      idx.toNat < 8 → data.length = 13 →
      exec (.tableWriteFirst seq (0x41 :: idx :: data)) s =
        .next ((s.opened.setStaging (some { table := .curve, index := idx.toNat, data := data })).mgmtAnswer seq 0x10
          .ok [])) ∧
    (s.Reaches .tableWrite (0x32 :: idx :: data) → s.mgmt.engine = .config → idx.toNat < 8 → data.length = 12 →
      (s.mgmt.staging = none ∨
        (∃ b, s.mgmt.staging = some b ∧ (b.table ≠ .zone ∨ b.index ≠ idx.toNat)) →
        exec (.tableWriteLast seq (0x32 :: idx :: data)) s = .next (s.opened.mgmtAnswer seq 0x10 .stageMismatch [])) ∧
      (s.mgmt.staging = some { table := .zone, index := idx.toNat, data := first } →
        (parseZone first data = some z →
          exec (.tableWriteLast seq (0x32 :: idx :: data)) s =
            .next (((s.opened.setStaging none).setTables
              { s.tables with zone := s.tables.zone.setIfInBounds idx.toNat (some z) }).mgmtAnswer seq 0x10 .ok [])) ∧
        (parseZone first data = none →
          exec (.tableWriteLast seq (0x32 :: idx :: data)) s =
            .next ((s.opened.setStaging none).mgmtAnswer seq 0x10 .badValue [])))) ∧
    (s.Reaches .tableWrite (0x42 :: idx :: data) → s.mgmt.engine = .config ∨ s.mgmt.engine = .armed →
      idx.toNat < 8 → data.length = 12 → s.mgmt.staging = some { table := .curve, index := idx.toNat, data := first } →
      parseCurveJoined first data = some c →
      exec (.tableWriteLast seq (0x42 :: idx :: data)) s =
        .next (((s.opened.setStaging none).setTables
          { s.tables with curve := s.tables.curve.setIfInBounds idx.toNat (some c) }).mgmtAnswer seq 0x10 .ok []))

/-- ARM in CONFIG empties the staging buffer, enters CHECKING and is answered ACCEPTED, and elsewhere is refused with
WRONG_STATE; CHECK_COMPLETION of a failed check writes its detail, queues CHECK_DONE and returns to CONFIG, of a passed one
clears the detail, queues CHECK_DONE and enters ARMED, where the silence timer starts as its conditions say and the executor
evaluates, and with no check running does nothing (log entry 2). -/
def Obligations.ArmAndCheckCompletion : Prop :=
  (∀ (s : State) (seq : Byte) (args : List Byte), s.Reaches .arm args →
    (s.mgmt.engine = .config →
      exec (.arm seq args) s =
        .next ((((s.opened.setStaging none).setEngine .checking).setCheck none).mgmtAnswer seq 0x11 .accepted [])) ∧
    (s.mgmt.engine ≠ .config → exec (.arm seq args) s = .next (s.opened.mgmtAnswer seq 0x11 .wrongState []))) ∧
  ∀ s : State,
    (s.mgmt.engine ≠ .checking ∨ s.mgmt.checkBegan = none → exec .checkCompletion s = .next s) ∧
    (s.mgmt.engine = .checking → s.mgmt.checkBegan ≠ none →
      (∀ d, s.tables.check = some d →
        exec .checkCompletion s =
          .next ((((s.setCheck none).setDetail d).notify .checkDone 1 (word d.table) (word d.index)).setEngine
            .config)) ∧
      (s.tables.check = none →
        ∃ t, exec .checkCompletion s = .next t ∧
          t = ((((((s.setCheck none).setDetail { table := 0, index := 0, sub := 0, reason := .none }).notify .checkDone 0 0xFFFF
            0xFFFF).setEngine .armed).syncSilence).runEvaluate) ∧
          t.mgmt.engine = .armed ∧ t.mgmt.checkBegan = none ∧
          t.mgmt.detail = { table := 0, index := 0, sub := 0, reason := .none } ∧ t.notices ≠ [] ∧
          t.tables = s.tables ∧ t.contain = s.contain))

/-- DISARM and PARK in ARMED: what each does when it is accepted, and each refusal. WAKE in WATCH returns the engine to
ARMED with the notice WAKE, cause 2, the silence timer and the executor's evaluation, and is answered OK with ATTN, for that
notice; elsewhere it is refused with WRONG_STATE. -/
def Obligations.DisarmParkAndWake : Prop :=
  (∀ (s : State) (seq b : Byte) (args : List Byte),
    (s.Reaches .disarm args →
      (s.mgmt.engine ≠ .armed → exec (.disarm seq args) s = .next (s.opened.mgmtAnswer seq 0x12 .wrongState [])) ∧
      (s.mgmt.engine = .armed → s.levels ≠ [] ∨ (∃ i, i < 64 ∧ (s.gateAt i).owner = .retained) →
        exec (.disarm seq args) s = .next (s.opened.mgmtAnswer seq 0x12 .planActive [])) ∧
      (s.mgmt.engine = .armed → s.levels = [] → (∀ i, i < 64 → (s.gateAt i).owner ≠ .retained) →
        exec (.disarm seq args) s =
          .next (((((s.opened.setJournal { s.journal with racks := [], overflow := false }).notify .journalDropped
            (word s.journal.racks.length) 0xFFFF 0xFFFF).setEngine .config).setSilence none).mgmtAnswer seq 0x12
              .ok []))) ∧
    (s.Reaches .park (b :: args) →
      (s.mgmt.engine ≠ .armed → exec (.park seq (b :: args)) s = .next (s.opened.mgmtAnswer seq 0x13 .wrongState [])) ∧
      (s.mgmt.engine = .armed → s.journal.racks ≠ [] ∨ s.levels ≠ [] →
        exec (.park seq (b :: args)) s = .next (s.opened.mgmtAnswer seq 0x13 .notIdle [])) ∧
      (∀ l, s.mgmt.engine = .armed → s.journal.racks = [] → s.levels = [] → s.tables.line = some l →
        exec (.park seq (b :: args)) s =
          .next (((((s.opened.setTraffic (b.getLsbD 0)).setEngine .watch).setSilence none).setWatch
            (some (s.time.clock + BitVec.ofNat 32 (100 * l.watchInterval)))).mgmtAnswer seq 0x13 .ok [])))) ∧
  ∀ (s : State) (seq : Byte) (args : List Byte), s.Reaches .wake args →
    (s.mgmt.engine = .watch →
      ∃ t, exec (.wake seq args) s = .next t ∧
        t = ((((((s.opened.setWatch none).setEngine .armed).notify .wake 2 0xFFFF 0xFFFF).syncSilence).runEvaluate).mgmtAnswer
          seq 0x14 .ok []) ∧
        t.mgmt.engine = .armed ∧ t.time.watchDeadline = none ∧
        t.notices ≠ [] ∧ t.mgmt.lastResult = some .ok ∧
        t.ports.cport = .replying { dst := 61, src := 62, kind := Kind.mgmtReply, flags := { attn := true }, seq := seq,
                                    payload := [0x14, 0] }) ∧
    (s.mgmt.engine ≠ .watch → exec (.wake seq args) s = .next (s.opened.mgmtAnswer seq 0x14 .wrongState []))

/-- FAULT_CLEAR returns a RESOLVED or FAILED latch to CLEAR and changes nothing else; MASK_SET writes both masks;
CONTAIN_CLEAR is OK while containment is off, STILL_MATCHING while a containment signature's last outcome is MATCH, and
else containment disengages with CONTAIN_CLEARED. -/
def Obligations.FaultContainClearAndMaskSet : Prop :=
  (∀ (s : State) (seq b m : Byte), s.mgmt.engine ≠ .checking → s.ports.cport = .idle → s.mgmt.prefixArmed = true →
    (12 ≤ b.toNat → exec (.faultClear seq [b]) s = .next (s.opened.mgmtAnswer seq 0x15 .badIndex [])) ∧
    (b.toNat < 12 → (s.latchAt b.toNat).state = .resolved ∨ (s.latchAt b.toNat).state = .failed →
      exec (.faultClear seq [b]) s =
        .next ((s.opened.setLatch b.toNat { state := .clear, count := 0, firstCause := none, ending := none }).mgmtAnswer
          seq 0x15 .ok [])) ∧
    (b.toNat < 12 → (s.latchAt b.toNat).state ≠ .resolved → (s.latchAt b.toNat).state ≠ .failed →
      exec (.faultClear seq [b]) s = .next (s.opened.mgmtAnswer seq 0x15 .notSettled [])) ∧
    exec (.maskSet seq [b, m]) s = .next ((s.opened.setMasks b m).mgmtAnswer seq 0x18 .ok [])) ∧
  ∀ (s : State) (seq : Byte) (args : List Byte), s.Reaches .containClear args →
    (s.contain.engaged = false → exec (.containClear seq args) s = .next (s.opened.mgmtAnswer seq 0x16 .ok [])) ∧
    (s.contain.engaged = true → (∃ g e, g < 48 ∧ s.sigAt g = some e ∧ e.cls ≤ 2 ∧ (s.runAt g).last = .hit) →
      exec (.containClear seq args) s = .next (s.opened.mgmtAnswer seq 0x16 .stillMatching [])) ∧
    (s.contain.engaged = true → (∀ g e, g < 48 → s.sigAt g = some e → e.cls ≤ 2 → (s.runAt g).last ≠ .hit) →
      exec (.containClear seq args) s =
        .next (((s.opened.notify .containCleared (optHalf (s.contain.firstCause.map (·.cls)))
          (optHalf (s.contain.firstCause.bind (·.zone))) (word s.contain.repeats)).setContain
            { engaged := false, firstCause := none, repeats := 0 }).mgmtAnswer seq 0x16 .ok []))

/-- RETAIN_RELEASE completes with OK, leaves no channel RETAINED and every other owner as it was, and makes each held order
of a released channel, its group unprotected, due for a replay that stands in the queue or waits for room. -/
def Obligations.RetainReleaseFreesEveryChannel : Prop :=
  ∀ (s : State) (seq : Byte) (args : List Byte), s.Reaches .retainRelease args →
    ∃ t, exec (.retainRelease seq args) s = .next t ∧ t.mgmt.lastResult = some .ok ∧
      (∀ i, i < 64 → (s.gateAt i).owner = .retained → (t.gateAt i).owner = .controller) ∧
      (∀ i, (s.gateAt i).owner ≠ .retained → (t.gateAt i).owner = (s.gateAt i).owner) ∧
      (∀ i, (t.gateAt i).forceOffDue = (s.gateAt i).forceOffDue ∧ (t.gateAt i).deferred = (s.gateAt i).deferred) ∧
      (∀ i r v, s.routeAt i = some r → (s.gateAt i).owner = .retained → (s.gateAt i).held = .held v →
        s.gate.ctlMask.getLsbD r.group = false →
        (t.gateAt i).held = .replayDue v ∧
          ((∃ q ∈ t.arbiter.queue, q.origin = .replay i) ∨ RoomEntry.replay i ∈ t.arbiter.room)) ∧
      ∃ f, t.ports.cport = .replying f ∧ f.payload = [0x17, 0] ∧ f.seq = seq

/-- SOFT_RESET from any engine state: what it discards, what it keeps, the RESTARTED notice alone in the queue, and the
reply OK with ATTN. -/
def Obligations.SoftResetKeepsAndDiscards : Prop :=
  ∀ (s : State) (seq : Byte) (args : List Byte), s.Reaches .softReset args →
    ∃ t, exec (.softReset seq args) s = .next t ∧
      t.mgmt.engine = .config ∧ t.mgmt.checkBegan = none ∧ t.mgmt.staging = none ∧ t.mgmt.prefixArmed = false ∧
      t.mgmt.lastResult = some .ok ∧ t.mgmt.detail = s.mgmt.detail ∧
      (∀ c, t.latchAt c = { state := .clear, count := 0, firstCause := none, ending := none }) ∧ t.levels = [] ∧
      (∀ i, t.gateAt i = { owner := .controller, held := .empty, handBack := none,
                           forceOffDue := (s.gateAt i).forceOffDue, deferred := (s.gateAt i).deferred }) ∧
      t.gate.ctlMask = s.gate.ctlMask ∧ t.gate.planMask = s.gate.planMask ∧ t.gate.lock = none ∧
      t.arbiter.room = [] ∧ t.arbiter.lastServed = s.arbiter.lastServed ∧
      (∀ q, q ∈ t.arbiter.queue ↔ q ∈ s.arbiter.queue ∧ (∀ d st i, q.origin ≠ .plan d st i) ∧
        (∀ i, q.origin ≠ .planOrphan i ∧ q.origin ≠ .replay i ∧ q.origin ≠ .handBack i)) ∧
      t.journal = { s.journal with racks := [], overflow := false } ∧
      (∀ i, t.imageAt i = { value := 0, status := .never, lastReading := none, pollRef := none,
                            keepPending := (s.imageAt i).keepPending, applied := 0 }) ∧
      (∀ g, t.runAt g = { count := 0, last := .none, anchor := none }) ∧ (∀ n, t.missesAt n = 0) ∧
      t.ports.sticky = Sticky.reset ∧ t.ports.phase = s.ports.phase ∧ t.ports.engineSeq = s.ports.engineSeq ∧
      t.tables = s.tables ∧ t.contain = s.contain ∧ t.time.clock = s.time.clock ∧ t.time.silence = none ∧
      t.time.watchDeadline = none ∧ t.time.wakeOnTraffic = s.time.wakeOnTraffic ∧
      t.notices = [{ kind := .restarted, time := s.time.clock, a := word s.mgmt.engine.code, b := 0xFFFF, c := 0xFFFF,
                     overflowed := false }] ∧
      t.ports.cport = .replying { dst := 61, src := 62, kind := Kind.mgmtReply, flags := { attn := true }, seq := seq,
                                  payload := [0x19, 0] }

/-! ### The N-side -/

/-- The ends of what the part sends, and the first character of a frame on the N-port: the controller transaction closes,
a table check that waits for ARM's reply begins, the reply timeout starts, the N-side becomes free. That an event with nothing
to end, or with no transaction to answer, changes nothing is the model's choice (log entries 2 and 10). -/
def Obligations.EndsOfSendingAndArrival : Prop :=
  ∀ s : State,
    (∀ f, s.ports.cport = .replying f → s.mgmt.engine = .checking → s.mgmt.checkBegan = none →
      exec .replySent s = .next ((s.setCPort .idle).setCheck (some s.time.clock))) ∧
    (∀ f, s.ports.cport = .replying f → (s.mgmt.engine ≠ .checking ∨ s.mgmt.checkBegan ≠ none) →
      exec .replySent s = .next (s.setCPort .idle)) ∧
    ((∀ f, s.ports.cport ≠ .replying f) → exec .replySent s = .next s) ∧
    (∀ f t, s.ports.sending = some f → s.ports.trans = some t →
      exec .nSendEnd s = .next ((s.setSending none).setTrans (some { t with timing := true }))) ∧
    (∀ f, s.ports.sending = some f → s.ports.trans = none → exec .nSendEnd s = .next (s.setSending none)) ∧
    (s.ports.sending = none → exec .nSendEnd s = .next s) ∧
    (∀ t, s.ports.trans = some t →
      exec .replyBeginsToArrive s = .next (s.setTrans (some { t with begun := true }))) ∧
    (s.ports.trans = none → exec .replyBeginsToArrive s = .next s)

/-- A reply ends the transaction, in order: the node's miss count, the image (a transparent frame's reply excepted), the block
that placed the request, and, for a controller frame, the reply upstream: forwarded, with REWRITTEN where an order's value
was changed, or for a converted POLL the gate's ACK PROTECTED with the value read. A plan order ends DONE or refused, a replay
empties its slot, and the end of a force-off under containment leaves it due and deferred unless it was DONE; of a flag that a
ROUTE commit cleared meanwhile the mark stays clear (log entry 25). -/
def Obligations.NodeRepliesEndTheTransaction : Prop :=
  ∀ (s : State) (f : Sys2Proof.Frame) (t : NodeTrans), s.ports.trans = some t → f.malformed = false →
    t.isReply f = true →
    let cleared := match t.origin with
      | .keepFresh i => (s.setMisses t.req.dst 0).modImage i fun c => { c with keepPending := false }
      | _ => s.setMisses t.req.dst 0
    let observed := match s.findRoute f.src f.chan with
      | some (i, r) =>
        if f.kind = Kind.reading ∧ r.kind.isSensor = true then
          cleared.takeReading i (half (f.payload.getD 1 0) (f.payload.getD 2 0)) (decide (f.payload.getD 3 0 = 0))
        else if f.kind = Kind.ack ∧ r.kind.isActuator = true ∧ f.payload.getD 1 0 = 0 then
          cleared.modImage i fun c => { c with applied := half (f.payload.getD 2 0) (f.payload.getD 3 0) }
        else cleared
      | none => cleared
    let done := f.kind = Kind.ack ∧ f.payload.getD 1 0 = 0
    let ends := fun (u : State) => exec (.nodeReply f) s = .next u
    let forwarded : Bool → Sys2Proof.Frame := fun rewritten =>
      { dst := 61, src := f.src, kind := f.kind, flags := { rewritten := rewritten }, seq := f.seq,
        payload := f.payload }
    (∀ c, t.origin = .controller c →
      (c.kind = .transparent → ends ((cleared.setTrans none).reply (forwarded false))) ∧
      (∀ i, c.kind = .poll i → ends ((observed.setTrans none).reply (forwarded false))) ∧
      (∀ i v, c.kind = .order i v →
        ends ((observed.setTrans none).reply (forwarded (decide (t.req.orderValue ≠ c.req.orderValue))))) ∧
      ∀ i p, c.kind = .protectedPoll i p →
        ends ((observed.setTrans none).reply
          { dst := 61, src := c.req.dst, kind := Kind.ack, seq := c.req.seq,
            payload := [c.req.chan, 3, f.payload.getD 1 0, f.payload.getD 2 0] })) ∧
    (∀ i, t.origin = .keepFresh i ∨ t.origin = .watch i ∨ t.origin = .planOrphan i ∨ t.origin = .handBack i ∨
      t.origin = .indicator i → ends (observed.setTrans none)) ∧
    (∀ d st i, t.origin = .plan d st i → f.kind = Kind.ack →
      (done → ends ((observed.planOrderEnded d st .done).setTrans none)) ∧
      (¬ done → ends ((observed.planOrderEnded d st .refused).setTrans none))) ∧
    (∀ i, t.origin = .replay i → f.kind = Kind.ack →
      (∀ v, (s.gateAt i).held = .replayDue v →
        ends ((observed.modGate i fun g => { g with held := .empty }).setTrans none)) ∧
      ((∀ v, (s.gateAt i).held ≠ .replayDue v) → ends (observed.setTrans none))) ∧
    (∀ i, t.origin = .forceOff i → f.kind = Kind.ack →
      (done ∨ s.contain.engaged = false →
        ends ((observed.modGate i fun g => { g with forceOffDue := false, deferred := false }).setTrans none)) ∧
      (¬ done → s.contain.engaged = true →
        ends ((observed.modGate i fun g => { g with deferred := g.forceOffDue }).setTrans none)))

/-- MISS. The expiry before the request's last character has gone, or with no transaction, is none of its own and changes
nothing (log entries 2 and 16); once a frame has begun to arrive it is only noted (log entry 16). Else the transaction misses:
the node's count rises, held at 3, and NODE_SILENT is raised as it reaches 3; a POLL of a sensor entry, found in ROUTE as it
stands then (log entry 20), sets its poll reference time, a transparent one does not (log entry 19), and a keep-fresh poll
clears its mark; the block that placed the request is told; and a controller frame is answered NO_REPLY, an order with the
applied value. A force-off under containment stays due, with the deferred mark only where it is still due (log entry 25). A
frame that began to arrive in time and ends late is taken when it is the reply; else it sets its sticky flag and the
transaction misses, both by the model's reading (log entry 16). -/
def Obligations.TimeoutMissesOrWaits : Prop :=
  let missed := fun (s : State) (t : NodeTrans) (r : State) =>
    let counted := s.setMisses t.req.dst (min 3 (s.missesAt t.req.dst + 1))
    let raised := if s.missesAt t.req.dst = 2 then
        counted.raise 9 { source := .node, zone := none, value := t.req.dst.toNat, time := s.time.clock }
      else counted
    let cleared := match t.origin with
      | .keepFresh i => raised.modImage i fun c => { c with keepPending := false }
      | _ => raised
    let observed := match s.findRoute t.req.dst t.req.chan with
      | some (i, e) =>
        if t.req.isPoll = true ∧ e.kind.isSensor = true then
          cleared.modImage i fun c => { c with pollRef := some s.time.clock }
        else cleared
      | none => cleared
    (∀ c, t.origin = .controller c →
      let reading := fun (u : State) => (u.setTrans none).reply
        { dst := 61, src := c.req.dst, kind := Kind.reading, flags := { engine := true }, seq := c.req.seq,
          payload := [c.req.chan, 0, 0, 5] }
      let ack := fun (v : Half) (u : State) => (u.setTrans none).reply
        { dst := 61, src := c.req.dst, kind := Kind.ack, flags := { engine := true }, seq := c.req.seq,
          payload := [c.req.chan, 5, hiByte v, loByte v] }
      (c.kind = .transparent → c.req.isPoll = false → r = ack 0 raised) ∧
      (c.kind = .transparent → c.req.isPoll = true → r = reading raised) ∧
      (∀ i, c.kind = .poll i → c.req.isPoll = true → r = reading observed) ∧
      (∀ i v, c.kind = .order i v → c.req.isPoll = false → r = ack (s.imageAt i).applied observed) ∧
      (∀ i p, c.kind = .protectedPoll i p → c.req.isPoll = false → r = ack (s.imageAt i).applied observed)) ∧
    (∀ i, t.origin = .keepFresh i ∨ t.origin = .watch i ∨ t.origin = .planOrphan i ∨ t.origin = .handBack i ∨
      t.origin = .indicator i → r = observed.setTrans none) ∧
    (∀ d st i, t.origin = .plan d st i →
      (observed.ports.trans = some t → r = (observed.planOrderEnded d st .noReply).setTrans none) ∧
      (observed.ports.trans ≠ some t → r = observed.setTrans none)) ∧
    (∀ i, t.origin = .replay i →
      (∀ v, (observed.gateAt i).held = .replayDue v →
        r = (observed.modGate i fun g => { g with held := .empty }).setTrans none) ∧
      ((∀ v, (observed.gateAt i).held ≠ .replayDue v) → r = observed.setTrans none)) ∧
    (∀ i, t.origin = .forceOff i →
      (observed.contain.engaged = false →
        r = (observed.modGate i fun g => { g with forceOffDue := false, deferred := false }).setTrans none) ∧
      (observed.contain.engaged = true →
        r = (observed.modGate i fun g => { g with deferred := g.forceOffDue }).setTrans none))
  ∀ s : State,
    (s.ports.trans = none → exec (.miss none) s = .next s) ∧
    ∀ t, s.ports.trans = some t →
      let late := { t with begun := true, expired := true }
      (t.timing = false → exec (.miss none) s = .next s) ∧
      (t.timing = true → t.begun = true →
        exec (.miss none) s = .next (s.setTrans (some { t with expired := true }))) ∧
      (t.timing = true → t.begun = false → ∃ r, exec (.miss none) s = .next r ∧ missed s t r) ∧
      ∀ f : Sys2Proof.Frame, t.timing = true →
        (f.malformed = false → t.isReply f = true →
          ∃ r, exec (.miss (some f)) s = .next r ∧ exec (.nodeReply f) (s.setTrans (some late)) = .next r) ∧
        (f.malformed = false → t.isReply f = false →
          ∃ r, exec (.miss (some f)) s = .next r ∧
            missed ((s.setTrans (some late)).setSticky { s.ports.sticky with stray := true }) late r) ∧
        (f.malformed = true →
          ∃ r, exec (.miss (some f)) s = .next r ∧
            missed ((s.setTrans (some late)).setSticky { s.ports.sticky with badN := true }) late r)

/-- The arbiter's choice: nothing while the N-side is busy (log entry 2); the first force-off due and not deferred before
anything else; then the controller frame, alone under the sequence lock, or the head of the queue, alone under lockout, else the
one whose source was not served last; a deferred force-off when there is neither; and else nothing. A frame other than a
force-off clears every deferred mark as it is sent. The departure rule: an order that leaves for a heater carries 0 under
containment, and else clears the heater's force-off; a transparent order is exempt, as R116 has it (log entry 19). The place
of a head of the queue is filled in the same step. ROOM_LIST_APPEND, a step of its own here (log entry 10), fills the queue
from the room list in the order of waiting: a plan ORDER of its value, its level then awaiting the ACK; a replay as the gate
then decides it; a hand-back's value (an entry without a value to send appends nothing, log entry 18). Afterwards the list is
empty or the queue is full, and with either so before, nothing changes. -/
def Obligations.ArbiterChoosesAndRoomListFills : Prop :=
  (∀ s : State,
    (s.ports.trans.isSome = true ∨ s.ports.sending.isSome = true → exec .arbiterChoice s = .next s) ∧
    (s.ports.trans = none → s.ports.sending = none →
      let due := fun (i : Nat) (deferred : Bool) => (s.gateAt i).forceOffDue = true ∧ (s.gateAt i).deferred = deferred
      let locked := s.gate.lock.isSome
      let lockout := s.levels.any (·.lockout)
      let sent := fun (o : Sys2Proof.Frame) (origin : Origin) (u : State) =>
        (u.setSending (some o)).setTrans
          (some { req := o, origin := origin, timeoutMs := s.replyTimeout, timing := false, begun := false,
                  expired := false })
      let departs := fun (o : Sys2Proof.Frame) (origin : Origin) (u : State) =>
        match s.findRoute o.dst o.chan with
        | some (i, r) =>
          if o.isOrder = true ∧ r.kind = .heater then
            if s.contain.engaged then sent { o with payload := [o.chan, 0, 0] } origin u
            else sent o origin (u.modGate i fun g => { g with forceOffDue := false, deferred := false })
          else sent o origin u
        | none => sent o origin u
      let cleared := fun (u : State) =>
        { u with gate := { u.gate with cells := u.gate.cells.map fun g => { g with deferred := false } } }
      let forceOff := fun (i : Nat) (r : RouteEntry) =>
        (sent { dst := r.node, src := 62, kind := Kind.order, flags := { engine := true }, seq := s.ports.engineSeq,
                payload := [r.chan, 0, 0] } (.forceOff i) s).bumpSeq
      (∀ i r, s.routeAt i = some r → due i false → (∀ j, j < i → ¬ due j false) →
        exec .arbiterChoice s = .next (forceOff i r)) ∧
      ((∀ i, i < 64 → ¬ due i false) →
        (∀ c, s.arbiter.waiting = some c →
          locked = true ∨ (lockout = false ∧ (s.arbiter.lastServed = .injected ∨ s.arbiter.queue = [])) →
          let served := cleared ((s.setWaiting none).setServed .controller)
          let plain : Sys2Proof.Frame := { c.req with flags := {} }
          (c.kind = .transparent → exec .arbiterChoice s = .next (sent plain (.controller c) served)) ∧
          (∀ i, c.kind = .poll i → exec .arbiterChoice s = .next (departs plain (.controller c) served)) ∧
          (∀ i v, c.kind = .order i v →
            exec .arbiterChoice s =
              .next (departs { plain with payload := [c.req.chan, hiByte v, loByte v] } (.controller c) served)) ∧
          ∀ i p, c.kind = .protectedPoll i p → exec .arbiterChoice s = .next (departs p (.controller c) served)) ∧
        (∀ q rest, s.arbiter.queue = q :: rest → locked = false →
          (lockout = true ∨ s.arbiter.waiting = none ∨ s.arbiter.lastServed = .controller) →
          ∃ filled, State.RoomFills (s.setQueue rest) filled ∧
            let served := cleared (filled.setServed .injected)
            (q.origin = .phase → exec .arbiterChoice s = .next (served.setSending (some q.frame))) ∧
            (q.origin ≠ .phase → (∀ c, q.origin ≠ .controller c) →
              exec .arbiterChoice s = .next (departs q.frame q.origin served))) ∧
        ((locked = true ∧ s.arbiter.waiting = none) ∨ (locked = false ∧ lockout = true ∧ s.arbiter.queue = []) ∨
            (locked = false ∧ s.arbiter.waiting = none ∧ s.arbiter.queue = []) →
          ((∀ i, i < 64 → ¬ due i true) → exec .arbiterChoice s = .next s) ∧
          ∀ i r, s.routeAt i = some r → due i true → (∀ j, j < i → ¬ due j true) →
            exec .arbiterChoice s = .next (forceOff i r))))) ∧
  ∀ s : State,
    (∃ t, exec .roomListAppend s = .next t ∧ State.RoomFills s t ∧
      (t.arbiter.room = [] ∨ 16 ≤ t.arbiter.queue.length)) ∧
    (s.arbiter.room = [] ∨ 16 ≤ s.arbiter.queue.length → exec .roomListAppend s = .next s)

/-! ### The time base -/

/-- The line clock advances by one and wraps; a multiple of 10 brings the age check, and in ARMED a multiple of 25 the
credit tick (the marks that an event is due are the model's, log entry 3). SILENCE_EXPIRY raises CTRL_SILENT, class 10, with
cause SILENCE, no zone and the limit in seconds as its value, whatever state its latch is in, and then sets the deadline
again: with the latch PENDING, RECOVERING or FAILED the raise only counts, from CLEAR or RESOLVED the cause is its first cause.
Before the deadline nothing happens (log entry 2). -/
def Obligations.ClockAndSilenceTimer : Prop :=
  (∀ s : State, exec .lineClockAdvance s =
    .next { s with time := { s.time with
      clock := s.time.clock + 1,
      ageDue := s.time.ageDue || decide ((s.time.clock + 1).toNat % 10 = 0),
      creditDue := s.time.creditDue ||
        (decide (s.mgmt.engine = .armed) && decide ((s.time.clock + 1).toNat % 25 = 0)) } }) ∧
  ∀ s : State,
    (dueAt s.time.silence s.time.clock = false → exec .silenceExpiry s = .next s) ∧
    (dueAt s.time.silence s.time.clock = true →
      let cause : Cause := { source := .silence, zone := none, value := s.silenceLimit, time := s.time.clock }
      exec .silenceExpiry s =
        .next ((s.raise 10 cause).setSilence (some (s.time.clock + BitVec.ofNat 32 (100 * s.silenceLimit)))) ∧
      (s.mgmt.engine = .armed → (s.latchAt 10).state = .clear ∨ (s.latchAt 10).state = .resolved →
        ((s.raise 10 cause).latchAt 10).firstCause = some cause ∧
        ((s.raise 10 cause).latchAt 10).count =
          if (s.latchAt 10).state = .clear then 1 else min 255 ((s.latchAt 10).count + 1))) ∧
    (dueAt s.time.silence s.time.clock = true → s.mgmt.engine = .armed →
      ((s.latchAt 10).state = .pending ∨ (s.latchAt 10).state = .recovering ∨ (s.latchAt 10).state = .failed) →
      exec .silenceExpiry s =
        .next ((s.setLatch 10 { s.latchAt 10 with count := min 255 ((s.latchAt 10).count + 1) }).setSilence
          (some (s.time.clock + BitVec.ofNat 32 (100 * s.silenceLimit)))))

/-- An age check that is due takes every sensor entry in route-index order; one that is not due changes nothing (log entry 2).
A FRESH entry whose age is above its stale limit becomes STALE and the change is handed to the signatures of test STALE of that
channel, in WATCH for watched channels alone; in ARMED alone a keep-fresh poll that falls due is appended while fewer than 8
frames are queued, and marked pending. In CONFIG and CHECKING nothing but the entries' status changes. The whole check keeps the
engine state in which it fell, the model's reading of a wake within it (log entry 20, section 10.4). -/
def Obligations.AgeCheckTakesEveryEntry : Prop :=
  (∀ s : State,
    (s.time.ageDue = false → exec .ageCheck s = .next s) ∧
    (s.time.ageDue = true → exec .ageCheck s = .next
      ((List.range 64).foldl (fun u i => u.ageEntry s.mgmt.engine i) { s with time := { s.time with ageDue := false } }))) ∧
  (∀ (u : State) (e : Engine) (i : Nat),
    let taken := u.ageEntry e i
    let stale := fun (r : RouteEntry) => (u.imageAt i).status = .fresh ∧ 1 ≤ r.stale ∧ r.stale ≤ 255 ∧
      ∃ t, (u.imageAt i).lastReading = some t ∧ r.stale * 10 < (u.time.clock - t).toNat
    let handed := (u.modImage i fun c => { c with status := .stale }).monitorStale i
    ((∀ r, u.routeAt i = some r → r.kind.isSensor = false) → taken = u) ∧
    ∀ r, u.routeAt i = some r → r.kind.isSensor = true →
      (e = .watch → u.watched i = false → taken = u) ∧
      (e ≠ .armed → (e = .watch → u.watched i = true) → (stale r → taken = handed) ∧ (¬ stale r → taken = u)) ∧
      ∀ v, e = .armed → (stale r ∧ v = handed) ∨ (¬ stale r ∧ v = u) →
        let due := 1 ≤ r.keepFresh ∧ r.keepFresh ≤ 255 ∧ (v.imageAt i).keepPending = false ∧
          ((v.imageAt i).pollRef = none ∨
            ∃ t, (v.imageAt i).pollRef = some t ∧ r.keepFresh * 10 ≤ (v.time.clock - t).toNat)
        (due → v.arbiter.queue.length < 8 →
          taken = ((v.setQueue (v.arbiter.queue ++
            [{ frame := { dst := r.node, src := 62, kind := Kind.poll, flags := { engine := true },
                          seq := v.ports.engineSeq, payload := [r.chan] },
               origin := .keepFresh i }])).bumpSeq).modImage i fun c => { c with keepPending := true }) ∧
        (¬ due ∨ 8 ≤ v.arbiter.queue.length → taken = v)) ∧
  (∀ (u : State) (i : Nat),
    u.monitorStale i = (List.range 48).foldl (fun w g => w.evalStale g i) u ∧
    ∀ g, (∀ e, u.sigAt g = some e → e.test ≠ .stale ∨ e.chA ≠ i ∨ u.mgmt.engine = .config ∨ u.mgmt.engine = .checking ∨
        (u.mgmt.engine = .watch ∧ (u.classAt e.cls).watch = false) ∨ u.gatesHold e = false) →
      g < 48 → u.evalStale g i = u) ∧
  (∀ (u : State) (g : Nat) (e : SigEntry), u.sigAt g = some e → e.test = .stale →
    u.mgmt.engine = .armed ∨ (u.mgmt.engine = .watch ∧ (u.classAt e.cls).watch = true) → u.gatesHold e = true →
    let run := u.runAt g
    (run.count + 1 < e.persistence →
      u.evalStale g e.chA = u.setRun g { count := run.count + 1, last := .hit, anchor := run.anchor }) ∧
    (e.persistence ≤ run.count + 1 →
      u.evalStale g e.chA = (u.setRun g { count := 0, last := .hit, anchor := run.anchor }).raise e.cls
        { source := .signature g, zone := e.zone, value := 0, time := u.time.clock })) ∧
  ∀ s : State, s.time.ageDue = true → s.mgmt.engine = .config ∨ s.mgmt.engine = .checking →
    ∃ image, exec .ageCheck s = .next { s with image := image, time := { s.time with ageDue := false } } ∧
      ∀ i (h : i < 64), ∀ r, s.routeAt i = some r →
        (∀ t, r.kind.isSensor = true → (s.imageAt i).status = .fresh → (s.imageAt i).lastReading = some t →
          1 ≤ r.stale → r.stale ≤ 255 → r.stale * 10 < (s.time.clock - t).toNat →
          image[i] = { s.imageAt i with status := .stale }) ∧
        (r.kind.isSensor = false ∨ (s.imageAt i).status ≠ .fresh ∨ r.stale = 0 ∨
          (∃ t, (s.imageAt i).lastReading = some t ∧ (s.time.clock - t).toNat ≤ r.stale * 10) →
          image[i] = s.imageAt i)

/-- A watch interval that is due sets the next deadline and appends one POLL for each watched channel, in ascending route
index, exactly while the queue as the earlier ones left it holds fewer than 8 frames and none of that channel's watch polls is
in it; each takes the engine's SEQ, which advances by one for each. One that is not due changes nothing (log entry 2). -/
def Obligations.WatchIntervalOffersPolls : Prop :=
  (∀ s : State, (s.mgmt.engine ≠ .watch ∨ dueAt s.time.watchDeadline s.time.clock = false) →
    exec .watchInterval s = .next s) ∧
  ∀ (s : State) (l : LineRecord), s.mgmt.engine = .watch → dueAt s.time.watchDeadline s.time.clock = true →
    s.tables.line = some l →
    let watched := fun (i : Nat) => (∃ r, s.routeAt i = some r ∧ r.kind.isSensor = true) ∧
      ∃ g e, g < 48 ∧ s.sigAt g = some e ∧ (s.classAt e.cls).watch = true ∧
        (e.chA = i ∨ (e.test = .diffAbove ∧ e.chB = some i))
    (∀ i, s.watched i = true ↔ watched i) ∧
    ∃ polled : List (Nat × RouteEntry),
      exec .watchInterval s =
        .next { s with time := { s.time with
                         watchDeadline := some (s.time.clock + BitVec.ofNat 32 (100 * l.watchInterval)) },
                       arbiter := { s.arbiter with
                         queue := s.arbiter.queue ++ polled.mapIdx fun k e =>
                           { frame := { dst := e.2.node, src := 62, kind := Kind.poll, flags := { engine := true },
                                        seq := s.ports.engineSeq + BitVec.ofNat 8 k, payload := [e.2.chan] },
                             origin := .watch e.1 } },
                       ports := { s.ports with
                         engineSeq := s.ports.engineSeq + BitVec.ofNat 8 polled.length } } ∧
      polled.Pairwise (fun a b => a.1 < b.1) ∧ (∀ e ∈ polled, e.1 < 64 ∧ s.routeAt e.1 = some e.2) ∧
      ∀ i, i < 64 → ((∃ r, (i, r) ∈ polled) ↔
        (watched i ∧ (∀ q ∈ s.arbiter.queue, q.origin ≠ .watch i) ∧
          s.arbiter.queue.length + polled.countP (fun e => decide (e.1 < i)) < 8))

/-- STEP_DEADLINE: a WAIT_TIME step completes, and past step 11 its level ends as END_OK does; a WAIT_FOR step, and a DRAIN or
REFILL step that waits for its level (phase 4), fails with TIMEOUT and moves to its fail target, or ends its level as END_FAIL
does where that is FAIL. Whatever step follows begins; where it is a WAIT_FOR without limit, it then waits. Before the deadline
nothing happens (log entries 2 and 4). -/
def Obligations.StepDeadlineMovesTheLevel : Prop :=
  ∀ (s : State) (below : List Level) (l : Level) (sl : PlanSlot), s.levels = below ++ [l] →
    s.planSlot l.plan l.step = some sl →
    let d := below.length
    let at_ := fun (step : Nat) (u : State) => u.setLevels
      (below ++ [{ l with step := step, wait := .none, tankPhase := 0, deadline := none, justBegun := true }])
    let goes := fun (step : Nat) (u : State) => State.runTask (some .startStep, at_ step u)
    let failed := s.notify .stepFailed (word l.cls) (word l.step) 5
    let waitsForReading := l.wait = .reading ∧
      (sl.kind = .waitFor ∨ ((sl.kind = .drain ∨ sl.kind = .refill) ∧ l.tankPhase = 4))
    (dueAt l.deadline s.time.clock = false → exec .stepDeadline s = .next s) ∧
    (dueAt l.deadline s.time.clock = true →
      (sl.kind = .waitTime → l.wait = .time →
        (l.step + 1 < 12 → exec .stepDeadline s = .next (goes (l.step + 1) s)) ∧
        (l.step = 11 →
          let handedBack := ((List.range 64).filter fun i => decide ((s.gateAt i).owner = .level d)).foldl
            (fun u i => u.passOn i d) (at_ 11 s)
          exec .stepDeadline s = .next (State.runTask (some .afterEnd, handedBack.levelGone d l.cls true 12)))) ∧
      (waitsForReading →
        (∀ t, sl.failTarget = some t → exec .stepDeadline s = .next (goes t failed)) ∧
        (sl.failTarget = none →
          ∃ u, State.LevelFails d l (at_ l.step failed) u ∧
            exec .stepDeadline s = .next (State.runTask (some .afterEnd, u))))) ∧
    ∀ (u : State) (step : Nat) (nx : PlanSlot), u.planSlot l.plan step = some nx → nx.kind = .waitFor → nx.timeout = 0 →
      goes step u = u.setLevels
        (below ++ [{ l with step := step, wait := .reading, tankPhase := 0, deadline := none, justBegun := true }])

/-- The table check finds the first condition that fails, the conditions in the order of R155 spelled out here with the detail
each gives: LINE (an exit position not beyond the longest rack gives LINE, 0, 0, EXIT_SHORT), the ninth HEATER entry, then
ZONE, SIGNATURE, PLAN and SELECT entry by entry; a ref that is read is present (ABSENT_REF) and then of a kind that is admitted
(WRONG_KIND). It passes exactly when all hold. The order within the clauses of a ZONE row is log entry 14; of several lower
zones that a zone overlaps the lowest is named (log entry 29). -/
def Obligations.TableCheckFindsTheFirstFault : Prop :=
  ∀ t : Tables,
    let detail := fun (table index sub : Nat) (r : CheckReason) =>
      ({ table := table, index := index, sub := sub, reason := r } : CheckDetail)
    let route := fun (i : Nat) => (t.route[i]?).join
    let zone := fun (z : Nat) => (t.zone[z]?).join
    let slot := fun (p step : Nat) => (t.plan[12 * p + step]?).join
    let heaters := (List.range 64).filter fun i => (route i).any fun r => decide (r.kind = .heater)
    let needs := fun (i : Nat) (admits : RouteKind → Prop) (d : CheckReason → CheckDetail) =>
      [(route i ≠ none, d .absentRef), (∀ r, route i = some r → admits r.kind, d .wrongKind)]
    let needsIf := fun (i : Option Nat) (admits : RouteKind → Prop) (d : CheckReason → CheckDetail) =>
      i.toList.flatMap fun i => needs i admits d
    let line : List (Prop × CheckDetail) :=
      (t.line ≠ none, detail 1 0 0 .lineUnwritten) ::
      t.line.toList.flatMap fun l =>
        needs l.entryEye (· = .eyeEntry) (detail 1 0 1) ++ needs l.exitEye (· = .eyeExit) (detail 1 0 2) ++
        needs l.advance (· = .advance) (detail 1 0 3) ++ needsIf l.conveyor (· = .conveyor) (detail 1 0 4) ++
        needsIf l.indicator (· = .indicator) (detail 1 0 5) ++ [(l.maxLength < l.exitPos, detail 1 0 0 .exitShort)]
    let zones : List (Prop × CheckDetail) :=
      (List.range 8).flatMap fun z => ((zone z).toList.filter fun e => decide (e.kind ≠ .none)).flatMap fun e =>
        [(e.start < e.stop ∧ e.stop ≤ 1600, detail 3 z 0 .span)] ++
        ((List.range z).map fun y =>
          (∀ o, zone y = some o → o.kind ≠ .none → ¬ (e.start < o.stop ∧ o.start < e.stop), detail 3 z y .overlap)) ++
        [(∀ l, t.line = some l → e.stop ≤ l.exitPos, detail 3 z 0 .exitShort),
         (0 < e.heatTarget → e.temp ≠ none, detail 3 z 1 .missingRef),
         (0 < e.actTarget → e.press ≠ none, detail 3 z 2 .missingRef)] ++
        needsIf e.temp (· = .temp) (detail 3 z 1) ++ needsIf e.press (· = .pressure) (detail 3 z 2) ++
        needsIf e.level (· = .level) (detail 3 z 3) ++ needsIf e.heater (· = .heater) (detail 3 z 4) ++
        needsIf e.pump (· = .pump) (detail 3 z 5) ++ needsIf e.inlet (· = .inlet) (detail 3 z 6) ++
        needsIf e.drain (· = .drain) (detail 3 z 7) ++
        [(0 < e.heatTarget → (t.curve[e.heatCurve]?).join ≠ none, detail 3 z 8 .absentRef),
         (0 < e.actTarget → (t.curve[e.actCurve]?).join ≠ none, detail 3 z 9 .absentRef)]
    let signatures : List (Prop × CheckDetail) :=
      (List.range 48).flatMap fun g => ((t.signature[g]?).join).toList.flatMap fun e =>
        [(e.cls ≤ 8, detail 5 g 0 .classRange)] ++ needs e.chA (·.isSensor = true) (detail 5 g 1) ++
        (if e.test = .diffAbove then
          (e.chB ≠ none, detail 5 g 2 .missingRef) :: needsIf e.chB (·.isSensor = true) (detail 5 g 2)
        else []) ++
        (if 1 ≤ e.gateCount then needs e.gate1.ref (·.isActuator = true) (detail 5 g 3) else []) ++
        (if 2 ≤ e.gateCount then needs e.gate2.ref (·.isActuator = true) (detail 5 g 4) else []) ++
        [(∀ z, e.zone = some z → zone z ≠ none, detail 5 g 5 .absentRef)]
    let plans : List (Prop × CheckDetail) :=
      (List.range 24).flatMap fun p => (List.range 12).flatMap fun step => (slot p step).toList.flatMap fun e =>
        [(∀ f, e.failTarget = some f → step < f, detail 8 p step .failTarget)] ++
        (if e.kind = .set ∨ e.kind = .release then needs e.subject.toNat (·.isActuator = true) (detail 8 p step)
        else if e.kind = .waitFor then needs (e.subject.toNat % 64) (·.isSensor = true) (detail 8 p step) else []) ++
        (if e.kind = .drain ∨ e.kind = .refill then
          [(∃ z, zone e.subject.toNat = some z ∧ z.kind ≠ .none, detail 8 p step .absentRef),
           (∀ z, zone e.subject.toNat = some z → z.level ≠ none ∧ (e.kind = .drain → z.drain ≠ none) ∧
              (e.kind = .refill → z.inlet ≠ none), detail 8 p step .missingRef)]
        else []) ++
        [(e.kind = .mark → e.subject.toNat ≤ e.value.toNat, detail 8 p step .markOrder),
         (e.kind = .holdLine ∨ e.kind = .runLine ∨ e.kind = .capLine ∨ e.kind = .releaseLine →
            ∃ l i, t.line = some l ∧ l.conveyor = some i, detail 8 p step .missingRef)]
    let selects : List (Prop × CheckDetail) :=
      (List.range 12).flatMap fun c => ((t.select[c]?).join).toList.flatMap fun r =>
        [r.standby, r.fill, r.heatUp, r.production, r.pause, r.empty].mapIdx fun phase cell =>
          (∀ p, cell = some p → slot p 0 ≠ none, detail 7 c phase .absentRef)
    let conditions :=
      line ++ [(heaters.length ≤ 8, detail 2 (heaters.getD 8 0) 0 .heaterCount)] ++ zones ++ signatures ++ plans ++ selects
    (t.check = none ↔ ∀ c ∈ conditions, c.1) ∧
    ∀ d, t.check = some d ↔ ∃ pre failing post, conditions = pre ++ (failing, d) :: post ∧ (∀ c ∈ pre, c.1) ∧ ¬ failing
end

