-- ==== Sys2Proof/Laws/State.lean ====
section
/-! SUPPORT. Every updater of the state, field by field: what it writes, and that it leaves the others alone. -/

namespace Sys2Proof.Machine

@[simp] theorem State.setTables_tables (t : Tables) (s : State) : (State.setTables t s).tables = t := rfl
@[simp] theorem State.setTables_image (t : Tables) (s : State) : (State.setTables t s).image = s.image := rfl
@[simp] theorem State.setTables_monitor (t : Tables) (s : State) : (State.setTables t s).monitor = s.monitor := rfl
@[simp] theorem State.setTables_latches (t : Tables) (s : State) : (State.setTables t s).latches = s.latches := rfl
@[simp] theorem State.setTables_contain (t : Tables) (s : State) : (State.setTables t s).contain = s.contain := rfl
@[simp] theorem State.setTables_journal (t : Tables) (s : State) : (State.setTables t s).journal = s.journal := rfl
@[simp] theorem State.setTables_levels (t : Tables) (s : State) : (State.setTables t s).levels = s.levels := rfl
@[simp] theorem State.setTables_gate (t : Tables) (s : State) : (State.setTables t s).gate = s.gate := rfl
@[simp] theorem State.setTables_arbiter (t : Tables) (s : State) : (State.setTables t s).arbiter = s.arbiter := rfl
@[simp] theorem State.setTables_ports (t : Tables) (s : State) : (State.setTables t s).ports = s.ports := rfl
@[simp] theorem State.setTables_mgmt (t : Tables) (s : State) : (State.setTables t s).mgmt = s.mgmt := rfl
@[simp] theorem State.setTables_notices (t : Tables) (s : State) : (State.setTables t s).notices = s.notices := rfl
@[simp] theorem State.setTables_time (t : Tables) (s : State) : (State.setTables t s).time = s.time := rfl
@[simp] theorem State.setTables_pending (t : Tables) (s : State) : (State.setTables t s).pending = s.pending := rfl
@[simp] theorem State.modImage_tables (i : Nat) (f : ImageCell → ImageCell) (s : State) :
    (State.modImage i f s).tables = s.tables := rfl
@[simp] theorem State.modImage_image (i : Nat) (f : ImageCell → ImageCell) (s : State) :
    (State.modImage i f s).image = s.image.setIfInBounds i (f (s.imageAt i)) := rfl
@[simp] theorem State.modImage_monitor (i : Nat) (f : ImageCell → ImageCell) (s : State) :
    (State.modImage i f s).monitor = s.monitor := rfl
@[simp] theorem State.modImage_latches (i : Nat) (f : ImageCell → ImageCell) (s : State) :
    (State.modImage i f s).latches = s.latches := rfl
@[simp] theorem State.modImage_contain (i : Nat) (f : ImageCell → ImageCell) (s : State) :
    (State.modImage i f s).contain = s.contain := rfl
@[simp] theorem State.modImage_journal (i : Nat) (f : ImageCell → ImageCell) (s : State) :
    (State.modImage i f s).journal = s.journal := rfl
@[simp] theorem State.modImage_levels (i : Nat) (f : ImageCell → ImageCell) (s : State) :
    (State.modImage i f s).levels = s.levels := rfl
@[simp] theorem State.modImage_gate (i : Nat) (f : ImageCell → ImageCell) (s : State) :
    (State.modImage i f s).gate = s.gate := rfl
@[simp] theorem State.modImage_arbiter (i : Nat) (f : ImageCell → ImageCell) (s : State) :
    (State.modImage i f s).arbiter = s.arbiter := rfl
@[simp] theorem State.modImage_ports (i : Nat) (f : ImageCell → ImageCell) (s : State) :
    (State.modImage i f s).ports = s.ports := rfl
@[simp] theorem State.modImage_mgmt (i : Nat) (f : ImageCell → ImageCell) (s : State) :
    (State.modImage i f s).mgmt = s.mgmt := rfl
@[simp] theorem State.modImage_notices (i : Nat) (f : ImageCell → ImageCell) (s : State) :
    (State.modImage i f s).notices = s.notices := rfl
@[simp] theorem State.modImage_time (i : Nat) (f : ImageCell → ImageCell) (s : State) :
    (State.modImage i f s).time = s.time := rfl
@[simp] theorem State.modImage_pending (i : Nat) (f : ImageCell → ImageCell) (s : State) :
    (State.modImage i f s).pending = s.pending := rfl
@[simp] theorem State.setRun_tables (g : Nat) (r : SigRun) (s : State) : (State.setRun g r s).tables = s.tables := rfl
@[simp] theorem State.setRun_image (g : Nat) (r : SigRun) (s : State) : (State.setRun g r s).image = s.image := rfl
@[simp] theorem State.setRun_monitor (g : Nat) (r : SigRun) (s : State) :
    (State.setRun g r s).monitor = s.monitor.setIfInBounds g r := rfl
@[simp] theorem State.setRun_latches (g : Nat) (r : SigRun) (s : State) :
    (State.setRun g r s).latches = s.latches := rfl
@[simp] theorem State.setRun_contain (g : Nat) (r : SigRun) (s : State) :
    (State.setRun g r s).contain = s.contain := rfl
@[simp] theorem State.setRun_journal (g : Nat) (r : SigRun) (s : State) :
    (State.setRun g r s).journal = s.journal := rfl
@[simp] theorem State.setRun_levels (g : Nat) (r : SigRun) (s : State) : (State.setRun g r s).levels = s.levels := rfl
@[simp] theorem State.setRun_gate (g : Nat) (r : SigRun) (s : State) : (State.setRun g r s).gate = s.gate := rfl
@[simp] theorem State.setRun_arbiter (g : Nat) (r : SigRun) (s : State) :
    (State.setRun g r s).arbiter = s.arbiter := rfl
@[simp] theorem State.setRun_ports (g : Nat) (r : SigRun) (s : State) : (State.setRun g r s).ports = s.ports := rfl
@[simp] theorem State.setRun_mgmt (g : Nat) (r : SigRun) (s : State) : (State.setRun g r s).mgmt = s.mgmt := rfl
@[simp] theorem State.setRun_notices (g : Nat) (r : SigRun) (s : State) :
    (State.setRun g r s).notices = s.notices := rfl
@[simp] theorem State.setRun_time (g : Nat) (r : SigRun) (s : State) : (State.setRun g r s).time = s.time := rfl
@[simp] theorem State.setRun_pending (g : Nat) (r : SigRun) (s : State) :
    (State.setRun g r s).pending = s.pending := rfl
@[simp] theorem State.setLatch_tables (c : Nat) (l : Latch) (s : State) :
    (State.setLatch c l s).tables = s.tables := rfl
@[simp] theorem State.setLatch_image (c : Nat) (l : Latch) (s : State) : (State.setLatch c l s).image = s.image := rfl
@[simp] theorem State.setLatch_monitor (c : Nat) (l : Latch) (s : State) :
    (State.setLatch c l s).monitor = s.monitor := rfl
@[simp] theorem State.setLatch_latches (c : Nat) (l : Latch) (s : State) :
    (State.setLatch c l s).latches = s.latches.setIfInBounds c l := rfl
@[simp] theorem State.setLatch_contain (c : Nat) (l : Latch) (s : State) :
    (State.setLatch c l s).contain = s.contain := rfl
@[simp] theorem State.setLatch_journal (c : Nat) (l : Latch) (s : State) :
    (State.setLatch c l s).journal = s.journal := rfl
@[simp] theorem State.setLatch_levels (c : Nat) (l : Latch) (s : State) :
    (State.setLatch c l s).levels = s.levels := rfl
@[simp] theorem State.setLatch_gate (c : Nat) (l : Latch) (s : State) : (State.setLatch c l s).gate = s.gate := rfl
@[simp] theorem State.setLatch_arbiter (c : Nat) (l : Latch) (s : State) :
    (State.setLatch c l s).arbiter = s.arbiter := rfl
@[simp] theorem State.setLatch_ports (c : Nat) (l : Latch) (s : State) : (State.setLatch c l s).ports = s.ports := rfl
@[simp] theorem State.setLatch_mgmt (c : Nat) (l : Latch) (s : State) : (State.setLatch c l s).mgmt = s.mgmt := rfl
@[simp] theorem State.setLatch_notices (c : Nat) (l : Latch) (s : State) :
    (State.setLatch c l s).notices = s.notices := rfl
@[simp] theorem State.setLatch_time (c : Nat) (l : Latch) (s : State) : (State.setLatch c l s).time = s.time := rfl
@[simp] theorem State.setLatch_pending (c : Nat) (l : Latch) (s : State) :
    (State.setLatch c l s).pending = s.pending := rfl
@[simp] theorem State.setContain_tables (c : Containment) (s : State) : (State.setContain c s).tables = s.tables := rfl
@[simp] theorem State.setContain_image (c : Containment) (s : State) : (State.setContain c s).image = s.image := rfl
@[simp] theorem State.setContain_monitor (c : Containment) (s : State) :
    (State.setContain c s).monitor = s.monitor := rfl
@[simp] theorem State.setContain_latches (c : Containment) (s : State) :
    (State.setContain c s).latches = s.latches := rfl
@[simp] theorem State.setContain_contain (c : Containment) (s : State) : (State.setContain c s).contain = c := rfl
@[simp] theorem State.setContain_journal (c : Containment) (s : State) :
    (State.setContain c s).journal = s.journal := rfl
@[simp] theorem State.setContain_levels (c : Containment) (s : State) : (State.setContain c s).levels = s.levels := rfl
@[simp] theorem State.setContain_gate (c : Containment) (s : State) : (State.setContain c s).gate = s.gate := rfl
@[simp] theorem State.setContain_arbiter (c : Containment) (s : State) :
    (State.setContain c s).arbiter = s.arbiter := rfl
@[simp] theorem State.setContain_ports (c : Containment) (s : State) : (State.setContain c s).ports = s.ports := rfl
@[simp] theorem State.setContain_mgmt (c : Containment) (s : State) : (State.setContain c s).mgmt = s.mgmt := rfl
@[simp] theorem State.setContain_notices (c : Containment) (s : State) :
    (State.setContain c s).notices = s.notices := rfl
@[simp] theorem State.setContain_time (c : Containment) (s : State) : (State.setContain c s).time = s.time := rfl
@[simp] theorem State.setContain_pending (c : Containment) (s : State) :
    (State.setContain c s).pending = s.pending := rfl
@[simp] theorem State.setJournal_tables (j : Journal) (s : State) : (State.setJournal j s).tables = s.tables := rfl
@[simp] theorem State.setJournal_image (j : Journal) (s : State) : (State.setJournal j s).image = s.image := rfl
@[simp] theorem State.setJournal_monitor (j : Journal) (s : State) : (State.setJournal j s).monitor = s.monitor := rfl
@[simp] theorem State.setJournal_latches (j : Journal) (s : State) : (State.setJournal j s).latches = s.latches := rfl
@[simp] theorem State.setJournal_contain (j : Journal) (s : State) : (State.setJournal j s).contain = s.contain := rfl
@[simp] theorem State.setJournal_journal (j : Journal) (s : State) : (State.setJournal j s).journal = j := rfl
@[simp] theorem State.setJournal_levels (j : Journal) (s : State) : (State.setJournal j s).levels = s.levels := rfl
@[simp] theorem State.setJournal_gate (j : Journal) (s : State) : (State.setJournal j s).gate = s.gate := rfl
@[simp] theorem State.setJournal_arbiter (j : Journal) (s : State) : (State.setJournal j s).arbiter = s.arbiter := rfl
@[simp] theorem State.setJournal_ports (j : Journal) (s : State) : (State.setJournal j s).ports = s.ports := rfl
@[simp] theorem State.setJournal_mgmt (j : Journal) (s : State) : (State.setJournal j s).mgmt = s.mgmt := rfl
@[simp] theorem State.setJournal_notices (j : Journal) (s : State) : (State.setJournal j s).notices = s.notices := rfl
@[simp] theorem State.setJournal_time (j : Journal) (s : State) : (State.setJournal j s).time = s.time := rfl
@[simp] theorem State.setJournal_pending (j : Journal) (s : State) : (State.setJournal j s).pending = s.pending := rfl
@[simp] theorem State.setLevels_tables (l : List Level) (s : State) : (State.setLevels l s).tables = s.tables := rfl
@[simp] theorem State.setLevels_image (l : List Level) (s : State) : (State.setLevels l s).image = s.image := rfl
@[simp] theorem State.setLevels_monitor (l : List Level) (s : State) : (State.setLevels l s).monitor = s.monitor := rfl
@[simp] theorem State.setLevels_latches (l : List Level) (s : State) : (State.setLevels l s).latches = s.latches := rfl
@[simp] theorem State.setLevels_contain (l : List Level) (s : State) : (State.setLevels l s).contain = s.contain := rfl
@[simp] theorem State.setLevels_journal (l : List Level) (s : State) : (State.setLevels l s).journal = s.journal := rfl
@[simp] theorem State.setLevels_levels (l : List Level) (s : State) : (State.setLevels l s).levels = l := rfl
@[simp] theorem State.setLevels_gate (l : List Level) (s : State) : (State.setLevels l s).gate = s.gate := rfl
@[simp] theorem State.setLevels_arbiter (l : List Level) (s : State) : (State.setLevels l s).arbiter = s.arbiter := rfl
@[simp] theorem State.setLevels_ports (l : List Level) (s : State) : (State.setLevels l s).ports = s.ports := rfl
@[simp] theorem State.setLevels_mgmt (l : List Level) (s : State) : (State.setLevels l s).mgmt = s.mgmt := rfl
@[simp] theorem State.setLevels_notices (l : List Level) (s : State) : (State.setLevels l s).notices = s.notices := rfl
@[simp] theorem State.setLevels_time (l : List Level) (s : State) : (State.setLevels l s).time = s.time := rfl
@[simp] theorem State.setLevels_pending (l : List Level) (s : State) : (State.setLevels l s).pending = s.pending := rfl
@[simp] theorem State.modGate_tables (i : Nat) (f : GateCell → GateCell) (s : State) :
    (State.modGate i f s).tables = s.tables := rfl
@[simp] theorem State.modGate_image (i : Nat) (f : GateCell → GateCell) (s : State) :
    (State.modGate i f s).image = s.image := rfl
@[simp] theorem State.modGate_monitor (i : Nat) (f : GateCell → GateCell) (s : State) :
    (State.modGate i f s).monitor = s.monitor := rfl
@[simp] theorem State.modGate_latches (i : Nat) (f : GateCell → GateCell) (s : State) :
    (State.modGate i f s).latches = s.latches := rfl
@[simp] theorem State.modGate_contain (i : Nat) (f : GateCell → GateCell) (s : State) :
    (State.modGate i f s).contain = s.contain := rfl
@[simp] theorem State.modGate_journal (i : Nat) (f : GateCell → GateCell) (s : State) :
    (State.modGate i f s).journal = s.journal := rfl
@[simp] theorem State.modGate_levels (i : Nat) (f : GateCell → GateCell) (s : State) :
    (State.modGate i f s).levels = s.levels := rfl
@[simp] theorem State.modGate_gate_cells (i : Nat) (f : GateCell → GateCell) (s : State) :
    (State.modGate i f s).gate.cells = s.gate.cells.setIfInBounds i (f (s.gateAt i)) := rfl
@[simp] theorem State.modGate_gate_ctlMask (i : Nat) (f : GateCell → GateCell) (s : State) :
    (State.modGate i f s).gate.ctlMask = s.gate.ctlMask := rfl
@[simp] theorem State.modGate_gate_planMask (i : Nat) (f : GateCell → GateCell) (s : State) :
    (State.modGate i f s).gate.planMask = s.gate.planMask := rfl
@[simp] theorem State.modGate_gate_lock (i : Nat) (f : GateCell → GateCell) (s : State) :
    (State.modGate i f s).gate.lock = s.gate.lock := rfl
@[simp] theorem State.modGate_arbiter (i : Nat) (f : GateCell → GateCell) (s : State) :
    (State.modGate i f s).arbiter = s.arbiter := rfl
@[simp] theorem State.modGate_ports (i : Nat) (f : GateCell → GateCell) (s : State) :
    (State.modGate i f s).ports = s.ports := rfl
@[simp] theorem State.modGate_mgmt (i : Nat) (f : GateCell → GateCell) (s : State) :
    (State.modGate i f s).mgmt = s.mgmt := rfl
@[simp] theorem State.modGate_notices (i : Nat) (f : GateCell → GateCell) (s : State) :
    (State.modGate i f s).notices = s.notices := rfl
@[simp] theorem State.modGate_time (i : Nat) (f : GateCell → GateCell) (s : State) :
    (State.modGate i f s).time = s.time := rfl
@[simp] theorem State.modGate_pending (i : Nat) (f : GateCell → GateCell) (s : State) :
    (State.modGate i f s).pending = s.pending := rfl
@[simp] theorem State.setLock_tables (l : Option Clock) (s : State) : (State.setLock l s).tables = s.tables := rfl
@[simp] theorem State.setLock_image (l : Option Clock) (s : State) : (State.setLock l s).image = s.image := rfl
@[simp] theorem State.setLock_monitor (l : Option Clock) (s : State) : (State.setLock l s).monitor = s.monitor := rfl
@[simp] theorem State.setLock_latches (l : Option Clock) (s : State) : (State.setLock l s).latches = s.latches := rfl
@[simp] theorem State.setLock_contain (l : Option Clock) (s : State) : (State.setLock l s).contain = s.contain := rfl
@[simp] theorem State.setLock_journal (l : Option Clock) (s : State) : (State.setLock l s).journal = s.journal := rfl
@[simp] theorem State.setLock_levels (l : Option Clock) (s : State) : (State.setLock l s).levels = s.levels := rfl
@[simp] theorem State.setLock_gate_cells (l : Option Clock) (s : State) :
    (State.setLock l s).gate.cells = s.gate.cells := rfl
@[simp] theorem State.setLock_gate_ctlMask (l : Option Clock) (s : State) :
    (State.setLock l s).gate.ctlMask = s.gate.ctlMask := rfl
@[simp] theorem State.setLock_gate_planMask (l : Option Clock) (s : State) :
    (State.setLock l s).gate.planMask = s.gate.planMask := rfl
@[simp] theorem State.setLock_gate_lock (l : Option Clock) (s : State) : (State.setLock l s).gate.lock = l := rfl
@[simp] theorem State.setLock_arbiter (l : Option Clock) (s : State) : (State.setLock l s).arbiter = s.arbiter := rfl
@[simp] theorem State.setLock_ports (l : Option Clock) (s : State) : (State.setLock l s).ports = s.ports := rfl
@[simp] theorem State.setLock_mgmt (l : Option Clock) (s : State) : (State.setLock l s).mgmt = s.mgmt := rfl
@[simp] theorem State.setLock_notices (l : Option Clock) (s : State) : (State.setLock l s).notices = s.notices := rfl
@[simp] theorem State.setLock_time (l : Option Clock) (s : State) : (State.setLock l s).time = s.time := rfl
@[simp] theorem State.setLock_pending (l : Option Clock) (s : State) : (State.setLock l s).pending = s.pending := rfl
@[simp] theorem State.setMasks_tables (ctl plan : Byte) (s : State) :
    (State.setMasks ctl plan s).tables = s.tables := rfl
@[simp] theorem State.setMasks_image (ctl plan : Byte) (s : State) : (State.setMasks ctl plan s).image = s.image := rfl
@[simp] theorem State.setMasks_monitor (ctl plan : Byte) (s : State) :
    (State.setMasks ctl plan s).monitor = s.monitor := rfl
@[simp] theorem State.setMasks_latches (ctl plan : Byte) (s : State) :
    (State.setMasks ctl plan s).latches = s.latches := rfl
@[simp] theorem State.setMasks_contain (ctl plan : Byte) (s : State) :
    (State.setMasks ctl plan s).contain = s.contain := rfl
@[simp] theorem State.setMasks_journal (ctl plan : Byte) (s : State) :
    (State.setMasks ctl plan s).journal = s.journal := rfl
@[simp] theorem State.setMasks_levels (ctl plan : Byte) (s : State) :
    (State.setMasks ctl plan s).levels = s.levels := rfl
@[simp] theorem State.setMasks_gate_cells (ctl plan : Byte) (s : State) :
    (State.setMasks ctl plan s).gate.cells = s.gate.cells := rfl
@[simp] theorem State.setMasks_gate_ctlMask (ctl plan : Byte) (s : State) :
    (State.setMasks ctl plan s).gate.ctlMask = ctl := rfl
@[simp] theorem State.setMasks_gate_planMask (ctl plan : Byte) (s : State) :
    (State.setMasks ctl plan s).gate.planMask = plan := rfl
@[simp] theorem State.setMasks_gate_lock (ctl plan : Byte) (s : State) :
    (State.setMasks ctl plan s).gate.lock = s.gate.lock := rfl
@[simp] theorem State.setMasks_arbiter (ctl plan : Byte) (s : State) :
    (State.setMasks ctl plan s).arbiter = s.arbiter := rfl
@[simp] theorem State.setMasks_ports (ctl plan : Byte) (s : State) : (State.setMasks ctl plan s).ports = s.ports := rfl
@[simp] theorem State.setMasks_mgmt (ctl plan : Byte) (s : State) : (State.setMasks ctl plan s).mgmt = s.mgmt := rfl
@[simp] theorem State.setMasks_notices (ctl plan : Byte) (s : State) :
    (State.setMasks ctl plan s).notices = s.notices := rfl
@[simp] theorem State.setMasks_time (ctl plan : Byte) (s : State) : (State.setMasks ctl plan s).time = s.time := rfl
@[simp] theorem State.setMasks_pending (ctl plan : Byte) (s : State) :
    (State.setMasks ctl plan s).pending = s.pending := rfl
@[simp] theorem State.setQueue_tables (q : List QFrame) (s : State) : (State.setQueue q s).tables = s.tables := rfl
@[simp] theorem State.setQueue_image (q : List QFrame) (s : State) : (State.setQueue q s).image = s.image := rfl
@[simp] theorem State.setQueue_monitor (q : List QFrame) (s : State) : (State.setQueue q s).monitor = s.monitor := rfl
@[simp] theorem State.setQueue_latches (q : List QFrame) (s : State) : (State.setQueue q s).latches = s.latches := rfl
@[simp] theorem State.setQueue_contain (q : List QFrame) (s : State) : (State.setQueue q s).contain = s.contain := rfl
@[simp] theorem State.setQueue_journal (q : List QFrame) (s : State) : (State.setQueue q s).journal = s.journal := rfl
@[simp] theorem State.setQueue_levels (q : List QFrame) (s : State) : (State.setQueue q s).levels = s.levels := rfl
@[simp] theorem State.setQueue_gate (q : List QFrame) (s : State) : (State.setQueue q s).gate = s.gate := rfl
@[simp] theorem State.setQueue_arbiter_queue (q : List QFrame) (s : State) :
    (State.setQueue q s).arbiter.queue = q := rfl
@[simp] theorem State.setQueue_arbiter_room (q : List QFrame) (s : State) :
    (State.setQueue q s).arbiter.room = s.arbiter.room := rfl
@[simp] theorem State.setQueue_arbiter_waiting (q : List QFrame) (s : State) :
    (State.setQueue q s).arbiter.waiting = s.arbiter.waiting := rfl
@[simp] theorem State.setQueue_arbiter_lastServed (q : List QFrame) (s : State) :
    (State.setQueue q s).arbiter.lastServed = s.arbiter.lastServed := rfl
@[simp] theorem State.setQueue_ports (q : List QFrame) (s : State) : (State.setQueue q s).ports = s.ports := rfl
@[simp] theorem State.setQueue_mgmt (q : List QFrame) (s : State) : (State.setQueue q s).mgmt = s.mgmt := rfl
@[simp] theorem State.setQueue_notices (q : List QFrame) (s : State) : (State.setQueue q s).notices = s.notices := rfl
@[simp] theorem State.setQueue_time (q : List QFrame) (s : State) : (State.setQueue q s).time = s.time := rfl
@[simp] theorem State.setQueue_pending (q : List QFrame) (s : State) : (State.setQueue q s).pending = s.pending := rfl
@[simp] theorem State.setRoom_tables (r : List RoomEntry) (s : State) : (State.setRoom r s).tables = s.tables := rfl
@[simp] theorem State.setRoom_image (r : List RoomEntry) (s : State) : (State.setRoom r s).image = s.image := rfl
@[simp] theorem State.setRoom_monitor (r : List RoomEntry) (s : State) : (State.setRoom r s).monitor = s.monitor := rfl
@[simp] theorem State.setRoom_latches (r : List RoomEntry) (s : State) : (State.setRoom r s).latches = s.latches := rfl
@[simp] theorem State.setRoom_contain (r : List RoomEntry) (s : State) : (State.setRoom r s).contain = s.contain := rfl
@[simp] theorem State.setRoom_journal (r : List RoomEntry) (s : State) : (State.setRoom r s).journal = s.journal := rfl
@[simp] theorem State.setRoom_levels (r : List RoomEntry) (s : State) : (State.setRoom r s).levels = s.levels := rfl
@[simp] theorem State.setRoom_gate (r : List RoomEntry) (s : State) : (State.setRoom r s).gate = s.gate := rfl
@[simp] theorem State.setRoom_arbiter_queue (r : List RoomEntry) (s : State) :
    (State.setRoom r s).arbiter.queue = s.arbiter.queue := rfl
@[simp] theorem State.setRoom_arbiter_room (r : List RoomEntry) (s : State) :
    (State.setRoom r s).arbiter.room = r := rfl
@[simp] theorem State.setRoom_arbiter_waiting (r : List RoomEntry) (s : State) :
    (State.setRoom r s).arbiter.waiting = s.arbiter.waiting := rfl
@[simp] theorem State.setRoom_arbiter_lastServed (r : List RoomEntry) (s : State) :
    (State.setRoom r s).arbiter.lastServed = s.arbiter.lastServed := rfl
@[simp] theorem State.setRoom_ports (r : List RoomEntry) (s : State) : (State.setRoom r s).ports = s.ports := rfl
@[simp] theorem State.setRoom_mgmt (r : List RoomEntry) (s : State) : (State.setRoom r s).mgmt = s.mgmt := rfl
@[simp] theorem State.setRoom_notices (r : List RoomEntry) (s : State) : (State.setRoom r s).notices = s.notices := rfl
@[simp] theorem State.setRoom_time (r : List RoomEntry) (s : State) : (State.setRoom r s).time = s.time := rfl
@[simp] theorem State.setRoom_pending (r : List RoomEntry) (s : State) : (State.setRoom r s).pending = s.pending := rfl
@[simp] theorem State.setWaiting_tables (c : Option CtlFrame) (s : State) :
    (State.setWaiting c s).tables = s.tables := rfl
@[simp] theorem State.setWaiting_image (c : Option CtlFrame) (s : State) :
    (State.setWaiting c s).image = s.image := rfl
@[simp] theorem State.setWaiting_monitor (c : Option CtlFrame) (s : State) :
    (State.setWaiting c s).monitor = s.monitor := rfl
@[simp] theorem State.setWaiting_latches (c : Option CtlFrame) (s : State) :
    (State.setWaiting c s).latches = s.latches := rfl
@[simp] theorem State.setWaiting_contain (c : Option CtlFrame) (s : State) :
    (State.setWaiting c s).contain = s.contain := rfl
@[simp] theorem State.setWaiting_journal (c : Option CtlFrame) (s : State) :
    (State.setWaiting c s).journal = s.journal := rfl
@[simp] theorem State.setWaiting_levels (c : Option CtlFrame) (s : State) :
    (State.setWaiting c s).levels = s.levels := rfl
@[simp] theorem State.setWaiting_gate (c : Option CtlFrame) (s : State) : (State.setWaiting c s).gate = s.gate := rfl
@[simp] theorem State.setWaiting_arbiter_queue (c : Option CtlFrame) (s : State) :
    (State.setWaiting c s).arbiter.queue = s.arbiter.queue := rfl
@[simp] theorem State.setWaiting_arbiter_room (c : Option CtlFrame) (s : State) :
    (State.setWaiting c s).arbiter.room = s.arbiter.room := rfl
@[simp] theorem State.setWaiting_arbiter_waiting (c : Option CtlFrame) (s : State) :
    (State.setWaiting c s).arbiter.waiting = c := rfl
@[simp] theorem State.setWaiting_arbiter_lastServed (c : Option CtlFrame) (s : State) :
    (State.setWaiting c s).arbiter.lastServed = s.arbiter.lastServed := rfl
@[simp] theorem State.setWaiting_ports (c : Option CtlFrame) (s : State) :
    (State.setWaiting c s).ports = s.ports := rfl
@[simp] theorem State.setWaiting_mgmt (c : Option CtlFrame) (s : State) : (State.setWaiting c s).mgmt = s.mgmt := rfl
@[simp] theorem State.setWaiting_notices (c : Option CtlFrame) (s : State) :
    (State.setWaiting c s).notices = s.notices := rfl
@[simp] theorem State.setWaiting_time (c : Option CtlFrame) (s : State) : (State.setWaiting c s).time = s.time := rfl
@[simp] theorem State.setWaiting_pending (c : Option CtlFrame) (s : State) :
    (State.setWaiting c s).pending = s.pending := rfl
@[simp] theorem State.setServed_tables (v : Served) (s : State) : (State.setServed v s).tables = s.tables := rfl
@[simp] theorem State.setServed_image (v : Served) (s : State) : (State.setServed v s).image = s.image := rfl
@[simp] theorem State.setServed_monitor (v : Served) (s : State) : (State.setServed v s).monitor = s.monitor := rfl
@[simp] theorem State.setServed_latches (v : Served) (s : State) : (State.setServed v s).latches = s.latches := rfl
@[simp] theorem State.setServed_contain (v : Served) (s : State) : (State.setServed v s).contain = s.contain := rfl
@[simp] theorem State.setServed_journal (v : Served) (s : State) : (State.setServed v s).journal = s.journal := rfl
@[simp] theorem State.setServed_levels (v : Served) (s : State) : (State.setServed v s).levels = s.levels := rfl
@[simp] theorem State.setServed_gate (v : Served) (s : State) : (State.setServed v s).gate = s.gate := rfl
@[simp] theorem State.setServed_arbiter_queue (v : Served) (s : State) :
    (State.setServed v s).arbiter.queue = s.arbiter.queue := rfl
@[simp] theorem State.setServed_arbiter_room (v : Served) (s : State) :
    (State.setServed v s).arbiter.room = s.arbiter.room := rfl
@[simp] theorem State.setServed_arbiter_waiting (v : Served) (s : State) :
    (State.setServed v s).arbiter.waiting = s.arbiter.waiting := rfl
@[simp] theorem State.setServed_arbiter_lastServed (v : Served) (s : State) :
    (State.setServed v s).arbiter.lastServed = v := rfl
@[simp] theorem State.setServed_ports (v : Served) (s : State) : (State.setServed v s).ports = s.ports := rfl
@[simp] theorem State.setServed_mgmt (v : Served) (s : State) : (State.setServed v s).mgmt = s.mgmt := rfl
@[simp] theorem State.setServed_notices (v : Served) (s : State) : (State.setServed v s).notices = s.notices := rfl
@[simp] theorem State.setServed_time (v : Served) (s : State) : (State.setServed v s).time = s.time := rfl
@[simp] theorem State.setServed_pending (v : Served) (s : State) : (State.setServed v s).pending = s.pending := rfl
@[simp] theorem State.setCPort_tables (c : CPort) (s : State) : (State.setCPort c s).tables = s.tables := rfl
@[simp] theorem State.setCPort_image (c : CPort) (s : State) : (State.setCPort c s).image = s.image := rfl
@[simp] theorem State.setCPort_monitor (c : CPort) (s : State) : (State.setCPort c s).monitor = s.monitor := rfl
@[simp] theorem State.setCPort_latches (c : CPort) (s : State) : (State.setCPort c s).latches = s.latches := rfl
@[simp] theorem State.setCPort_contain (c : CPort) (s : State) : (State.setCPort c s).contain = s.contain := rfl
@[simp] theorem State.setCPort_journal (c : CPort) (s : State) : (State.setCPort c s).journal = s.journal := rfl
@[simp] theorem State.setCPort_levels (c : CPort) (s : State) : (State.setCPort c s).levels = s.levels := rfl
@[simp] theorem State.setCPort_gate (c : CPort) (s : State) : (State.setCPort c s).gate = s.gate := rfl
@[simp] theorem State.setCPort_arbiter (c : CPort) (s : State) : (State.setCPort c s).arbiter = s.arbiter := rfl
@[simp] theorem State.setCPort_ports_cport (c : CPort) (s : State) : (State.setCPort c s).ports.cport = c := rfl
@[simp] theorem State.setCPort_ports_sending (c : CPort) (s : State) :
    (State.setCPort c s).ports.sending = s.ports.sending := rfl
@[simp] theorem State.setCPort_ports_trans (c : CPort) (s : State) :
    (State.setCPort c s).ports.trans = s.ports.trans := rfl
@[simp] theorem State.setCPort_ports_misses (c : CPort) (s : State) :
    (State.setCPort c s).ports.misses = s.ports.misses := rfl
@[simp] theorem State.setCPort_ports_engineSeq (c : CPort) (s : State) :
    (State.setCPort c s).ports.engineSeq = s.ports.engineSeq := rfl
@[simp] theorem State.setCPort_ports_phase (c : CPort) (s : State) :
    (State.setCPort c s).ports.phase = s.ports.phase := rfl
@[simp] theorem State.setCPort_ports_sticky (c : CPort) (s : State) :
    (State.setCPort c s).ports.sticky = s.ports.sticky := rfl
@[simp] theorem State.setCPort_mgmt (c : CPort) (s : State) : (State.setCPort c s).mgmt = s.mgmt := rfl
@[simp] theorem State.setCPort_notices (c : CPort) (s : State) : (State.setCPort c s).notices = s.notices := rfl
@[simp] theorem State.setCPort_time (c : CPort) (s : State) : (State.setCPort c s).time = s.time := rfl
@[simp] theorem State.setCPort_pending (c : CPort) (s : State) : (State.setCPort c s).pending = s.pending := rfl
@[simp] theorem State.setTrans_tables (t : Option NodeTrans) (s : State) :
    (State.setTrans t s).tables = s.tables := rfl
@[simp] theorem State.setTrans_image (t : Option NodeTrans) (s : State) : (State.setTrans t s).image = s.image := rfl
@[simp] theorem State.setTrans_monitor (t : Option NodeTrans) (s : State) :
    (State.setTrans t s).monitor = s.monitor := rfl
@[simp] theorem State.setTrans_latches (t : Option NodeTrans) (s : State) :
    (State.setTrans t s).latches = s.latches := rfl
@[simp] theorem State.setTrans_contain (t : Option NodeTrans) (s : State) :
    (State.setTrans t s).contain = s.contain := rfl
@[simp] theorem State.setTrans_journal (t : Option NodeTrans) (s : State) :
    (State.setTrans t s).journal = s.journal := rfl
@[simp] theorem State.setTrans_levels (t : Option NodeTrans) (s : State) :
    (State.setTrans t s).levels = s.levels := rfl
@[simp] theorem State.setTrans_gate (t : Option NodeTrans) (s : State) : (State.setTrans t s).gate = s.gate := rfl
@[simp] theorem State.setTrans_arbiter (t : Option NodeTrans) (s : State) :
    (State.setTrans t s).arbiter = s.arbiter := rfl
@[simp] theorem State.setTrans_ports_cport (t : Option NodeTrans) (s : State) :
    (State.setTrans t s).ports.cport = s.ports.cport := rfl
@[simp] theorem State.setTrans_ports_sending (t : Option NodeTrans) (s : State) :
    (State.setTrans t s).ports.sending = s.ports.sending := rfl
@[simp] theorem State.setTrans_ports_trans (t : Option NodeTrans) (s : State) :
    (State.setTrans t s).ports.trans = t := rfl
@[simp] theorem State.setTrans_ports_misses (t : Option NodeTrans) (s : State) :
    (State.setTrans t s).ports.misses = s.ports.misses := rfl
@[simp] theorem State.setTrans_ports_engineSeq (t : Option NodeTrans) (s : State) :
    (State.setTrans t s).ports.engineSeq = s.ports.engineSeq := rfl
@[simp] theorem State.setTrans_ports_phase (t : Option NodeTrans) (s : State) :
    (State.setTrans t s).ports.phase = s.ports.phase := rfl
@[simp] theorem State.setTrans_ports_sticky (t : Option NodeTrans) (s : State) :
    (State.setTrans t s).ports.sticky = s.ports.sticky := rfl
@[simp] theorem State.setTrans_mgmt (t : Option NodeTrans) (s : State) : (State.setTrans t s).mgmt = s.mgmt := rfl
@[simp] theorem State.setTrans_notices (t : Option NodeTrans) (s : State) :
    (State.setTrans t s).notices = s.notices := rfl
@[simp] theorem State.setTrans_time (t : Option NodeTrans) (s : State) : (State.setTrans t s).time = s.time := rfl
@[simp] theorem State.setTrans_pending (t : Option NodeTrans) (s : State) :
    (State.setTrans t s).pending = s.pending := rfl
@[simp] theorem State.setSending_tables (f : Option Sys2Proof.Frame) (s : State) :
    (State.setSending f s).tables = s.tables := rfl
@[simp] theorem State.setSending_image (f : Option Sys2Proof.Frame) (s : State) :
    (State.setSending f s).image = s.image := rfl
@[simp] theorem State.setSending_monitor (f : Option Sys2Proof.Frame) (s : State) :
    (State.setSending f s).monitor = s.monitor := rfl
@[simp] theorem State.setSending_latches (f : Option Sys2Proof.Frame) (s : State) :
    (State.setSending f s).latches = s.latches := rfl
@[simp] theorem State.setSending_contain (f : Option Sys2Proof.Frame) (s : State) :
    (State.setSending f s).contain = s.contain := rfl
@[simp] theorem State.setSending_journal (f : Option Sys2Proof.Frame) (s : State) :
    (State.setSending f s).journal = s.journal := rfl
@[simp] theorem State.setSending_levels (f : Option Sys2Proof.Frame) (s : State) :
    (State.setSending f s).levels = s.levels := rfl
@[simp] theorem State.setSending_gate (f : Option Sys2Proof.Frame) (s : State) :
    (State.setSending f s).gate = s.gate := rfl
@[simp] theorem State.setSending_arbiter (f : Option Sys2Proof.Frame) (s : State) :
    (State.setSending f s).arbiter = s.arbiter := rfl
@[simp] theorem State.setSending_ports_cport (f : Option Sys2Proof.Frame) (s : State) :
    (State.setSending f s).ports.cport = s.ports.cport := rfl
@[simp] theorem State.setSending_ports_sending (f : Option Sys2Proof.Frame) (s : State) :
    (State.setSending f s).ports.sending = f := rfl
@[simp] theorem State.setSending_ports_trans (f : Option Sys2Proof.Frame) (s : State) :
    (State.setSending f s).ports.trans = s.ports.trans := rfl
@[simp] theorem State.setSending_ports_misses (f : Option Sys2Proof.Frame) (s : State) :
    (State.setSending f s).ports.misses = s.ports.misses := rfl
@[simp] theorem State.setSending_ports_engineSeq (f : Option Sys2Proof.Frame) (s : State) :
    (State.setSending f s).ports.engineSeq = s.ports.engineSeq := rfl
@[simp] theorem State.setSending_ports_phase (f : Option Sys2Proof.Frame) (s : State) :
    (State.setSending f s).ports.phase = s.ports.phase := rfl
@[simp] theorem State.setSending_ports_sticky (f : Option Sys2Proof.Frame) (s : State) :
    (State.setSending f s).ports.sticky = s.ports.sticky := rfl
@[simp] theorem State.setSending_mgmt (f : Option Sys2Proof.Frame) (s : State) :
    (State.setSending f s).mgmt = s.mgmt := rfl
@[simp] theorem State.setSending_notices (f : Option Sys2Proof.Frame) (s : State) :
    (State.setSending f s).notices = s.notices := rfl
@[simp] theorem State.setSending_time (f : Option Sys2Proof.Frame) (s : State) :
    (State.setSending f s).time = s.time := rfl
@[simp] theorem State.setSending_pending (f : Option Sys2Proof.Frame) (s : State) :
    (State.setSending f s).pending = s.pending := rfl
@[simp] theorem State.setMisses_tables (node : Byte) (n : Nat) (s : State) :
    (State.setMisses node n s).tables = s.tables := rfl
@[simp] theorem State.setMisses_image (node : Byte) (n : Nat) (s : State) :
    (State.setMisses node n s).image = s.image := rfl
@[simp] theorem State.setMisses_monitor (node : Byte) (n : Nat) (s : State) :
    (State.setMisses node n s).monitor = s.monitor := rfl
@[simp] theorem State.setMisses_latches (node : Byte) (n : Nat) (s : State) :
    (State.setMisses node n s).latches = s.latches := rfl
@[simp] theorem State.setMisses_contain (node : Byte) (n : Nat) (s : State) :
    (State.setMisses node n s).contain = s.contain := rfl
@[simp] theorem State.setMisses_journal (node : Byte) (n : Nat) (s : State) :
    (State.setMisses node n s).journal = s.journal := rfl
@[simp] theorem State.setMisses_levels (node : Byte) (n : Nat) (s : State) :
    (State.setMisses node n s).levels = s.levels := rfl
@[simp] theorem State.setMisses_gate (node : Byte) (n : Nat) (s : State) :
    (State.setMisses node n s).gate = s.gate := rfl
@[simp] theorem State.setMisses_arbiter (node : Byte) (n : Nat) (s : State) :
    (State.setMisses node n s).arbiter = s.arbiter := rfl
@[simp] theorem State.setMisses_ports_cport (node : Byte) (n : Nat) (s : State) :
    (State.setMisses node n s).ports.cport = s.ports.cport := rfl
@[simp] theorem State.setMisses_ports_sending (node : Byte) (n : Nat) (s : State) :
    (State.setMisses node n s).ports.sending = s.ports.sending := rfl
@[simp] theorem State.setMisses_ports_trans (node : Byte) (n : Nat) (s : State) :
    (State.setMisses node n s).ports.trans = s.ports.trans := rfl
@[simp] theorem State.setMisses_ports_misses (node : Byte) (n : Nat) (s : State) :
    (State.setMisses node n s).ports.misses = s.ports.misses.setIfInBounds node.toNat n := rfl
@[simp] theorem State.setMisses_ports_engineSeq (node : Byte) (n : Nat) (s : State) :
    (State.setMisses node n s).ports.engineSeq = s.ports.engineSeq := rfl
@[simp] theorem State.setMisses_ports_phase (node : Byte) (n : Nat) (s : State) :
    (State.setMisses node n s).ports.phase = s.ports.phase := rfl
@[simp] theorem State.setMisses_ports_sticky (node : Byte) (n : Nat) (s : State) :
    (State.setMisses node n s).ports.sticky = s.ports.sticky := rfl
@[simp] theorem State.setMisses_mgmt (node : Byte) (n : Nat) (s : State) :
    (State.setMisses node n s).mgmt = s.mgmt := rfl
@[simp] theorem State.setMisses_notices (node : Byte) (n : Nat) (s : State) :
    (State.setMisses node n s).notices = s.notices := rfl
@[simp] theorem State.setMisses_time (node : Byte) (n : Nat) (s : State) :
    (State.setMisses node n s).time = s.time := rfl
@[simp] theorem State.setMisses_pending (node : Byte) (n : Nat) (s : State) :
    (State.setMisses node n s).pending = s.pending := rfl
@[simp] theorem State.setPhase_tables (p : Phase) (s : State) : (State.setPhase p s).tables = s.tables := rfl
@[simp] theorem State.setPhase_image (p : Phase) (s : State) : (State.setPhase p s).image = s.image := rfl
@[simp] theorem State.setPhase_monitor (p : Phase) (s : State) : (State.setPhase p s).monitor = s.monitor := rfl
@[simp] theorem State.setPhase_latches (p : Phase) (s : State) : (State.setPhase p s).latches = s.latches := rfl
@[simp] theorem State.setPhase_contain (p : Phase) (s : State) : (State.setPhase p s).contain = s.contain := rfl
@[simp] theorem State.setPhase_journal (p : Phase) (s : State) : (State.setPhase p s).journal = s.journal := rfl
@[simp] theorem State.setPhase_levels (p : Phase) (s : State) : (State.setPhase p s).levels = s.levels := rfl
@[simp] theorem State.setPhase_gate (p : Phase) (s : State) : (State.setPhase p s).gate = s.gate := rfl
@[simp] theorem State.setPhase_arbiter (p : Phase) (s : State) : (State.setPhase p s).arbiter = s.arbiter := rfl
@[simp] theorem State.setPhase_ports_cport (p : Phase) (s : State) :
    (State.setPhase p s).ports.cport = s.ports.cport := rfl
@[simp] theorem State.setPhase_ports_sending (p : Phase) (s : State) :
    (State.setPhase p s).ports.sending = s.ports.sending := rfl
@[simp] theorem State.setPhase_ports_trans (p : Phase) (s : State) :
    (State.setPhase p s).ports.trans = s.ports.trans := rfl
@[simp] theorem State.setPhase_ports_misses (p : Phase) (s : State) :
    (State.setPhase p s).ports.misses = s.ports.misses := rfl
@[simp] theorem State.setPhase_ports_engineSeq (p : Phase) (s : State) :
    (State.setPhase p s).ports.engineSeq = s.ports.engineSeq := rfl
@[simp] theorem State.setPhase_ports_phase (p : Phase) (s : State) : (State.setPhase p s).ports.phase = p := rfl
@[simp] theorem State.setPhase_ports_sticky (p : Phase) (s : State) :
    (State.setPhase p s).ports.sticky = s.ports.sticky := rfl
@[simp] theorem State.setPhase_mgmt (p : Phase) (s : State) : (State.setPhase p s).mgmt = s.mgmt := rfl
@[simp] theorem State.setPhase_notices (p : Phase) (s : State) : (State.setPhase p s).notices = s.notices := rfl
@[simp] theorem State.setPhase_time (p : Phase) (s : State) : (State.setPhase p s).time = s.time := rfl
@[simp] theorem State.setPhase_pending (p : Phase) (s : State) : (State.setPhase p s).pending = s.pending := rfl
@[simp] theorem State.setSticky_tables (f : Sticky) (s : State) : (State.setSticky f s).tables = s.tables := rfl
@[simp] theorem State.setSticky_image (f : Sticky) (s : State) : (State.setSticky f s).image = s.image := rfl
@[simp] theorem State.setSticky_monitor (f : Sticky) (s : State) : (State.setSticky f s).monitor = s.monitor := rfl
@[simp] theorem State.setSticky_latches (f : Sticky) (s : State) : (State.setSticky f s).latches = s.latches := rfl
@[simp] theorem State.setSticky_contain (f : Sticky) (s : State) : (State.setSticky f s).contain = s.contain := rfl
@[simp] theorem State.setSticky_journal (f : Sticky) (s : State) : (State.setSticky f s).journal = s.journal := rfl
@[simp] theorem State.setSticky_levels (f : Sticky) (s : State) : (State.setSticky f s).levels = s.levels := rfl
@[simp] theorem State.setSticky_gate (f : Sticky) (s : State) : (State.setSticky f s).gate = s.gate := rfl
@[simp] theorem State.setSticky_arbiter (f : Sticky) (s : State) : (State.setSticky f s).arbiter = s.arbiter := rfl
@[simp] theorem State.setSticky_ports_cport (f : Sticky) (s : State) :
    (State.setSticky f s).ports.cport = s.ports.cport := rfl
@[simp] theorem State.setSticky_ports_sending (f : Sticky) (s : State) :
    (State.setSticky f s).ports.sending = s.ports.sending := rfl
@[simp] theorem State.setSticky_ports_trans (f : Sticky) (s : State) :
    (State.setSticky f s).ports.trans = s.ports.trans := rfl
@[simp] theorem State.setSticky_ports_misses (f : Sticky) (s : State) :
    (State.setSticky f s).ports.misses = s.ports.misses := rfl
@[simp] theorem State.setSticky_ports_engineSeq (f : Sticky) (s : State) :
    (State.setSticky f s).ports.engineSeq = s.ports.engineSeq := rfl
@[simp] theorem State.setSticky_ports_phase (f : Sticky) (s : State) :
    (State.setSticky f s).ports.phase = s.ports.phase := rfl
@[simp] theorem State.setSticky_ports_sticky (f : Sticky) (s : State) : (State.setSticky f s).ports.sticky = f := rfl
@[simp] theorem State.setSticky_mgmt (f : Sticky) (s : State) : (State.setSticky f s).mgmt = s.mgmt := rfl
@[simp] theorem State.setSticky_notices (f : Sticky) (s : State) : (State.setSticky f s).notices = s.notices := rfl
@[simp] theorem State.setSticky_time (f : Sticky) (s : State) : (State.setSticky f s).time = s.time := rfl
@[simp] theorem State.setSticky_pending (f : Sticky) (s : State) : (State.setSticky f s).pending = s.pending := rfl
@[simp] theorem State.bumpSeq_tables (s : State) : (State.bumpSeq s).tables = s.tables := rfl
@[simp] theorem State.bumpSeq_image (s : State) : (State.bumpSeq s).image = s.image := rfl
@[simp] theorem State.bumpSeq_monitor (s : State) : (State.bumpSeq s).monitor = s.monitor := rfl
@[simp] theorem State.bumpSeq_latches (s : State) : (State.bumpSeq s).latches = s.latches := rfl
@[simp] theorem State.bumpSeq_contain (s : State) : (State.bumpSeq s).contain = s.contain := rfl
@[simp] theorem State.bumpSeq_journal (s : State) : (State.bumpSeq s).journal = s.journal := rfl
@[simp] theorem State.bumpSeq_levels (s : State) : (State.bumpSeq s).levels = s.levels := rfl
@[simp] theorem State.bumpSeq_gate (s : State) : (State.bumpSeq s).gate = s.gate := rfl
@[simp] theorem State.bumpSeq_arbiter (s : State) : (State.bumpSeq s).arbiter = s.arbiter := rfl
@[simp] theorem State.bumpSeq_ports_cport (s : State) : (State.bumpSeq s).ports.cport = s.ports.cport := rfl
@[simp] theorem State.bumpSeq_ports_sending (s : State) : (State.bumpSeq s).ports.sending = s.ports.sending := rfl
@[simp] theorem State.bumpSeq_ports_trans (s : State) : (State.bumpSeq s).ports.trans = s.ports.trans := rfl
@[simp] theorem State.bumpSeq_ports_misses (s : State) : (State.bumpSeq s).ports.misses = s.ports.misses := rfl
@[simp] theorem State.bumpSeq_ports_engineSeq (s : State) :
    (State.bumpSeq s).ports.engineSeq = s.ports.engineSeq + 1 := rfl
@[simp] theorem State.bumpSeq_ports_phase (s : State) : (State.bumpSeq s).ports.phase = s.ports.phase := rfl
@[simp] theorem State.bumpSeq_ports_sticky (s : State) : (State.bumpSeq s).ports.sticky = s.ports.sticky := rfl
@[simp] theorem State.bumpSeq_mgmt (s : State) : (State.bumpSeq s).mgmt = s.mgmt := rfl
@[simp] theorem State.bumpSeq_notices (s : State) : (State.bumpSeq s).notices = s.notices := rfl
@[simp] theorem State.bumpSeq_time (s : State) : (State.bumpSeq s).time = s.time := rfl
@[simp] theorem State.bumpSeq_pending (s : State) : (State.bumpSeq s).pending = s.pending := rfl
@[simp] theorem State.setPrefix_tables (b : Bool) (s : State) : (State.setPrefix b s).tables = s.tables := rfl
@[simp] theorem State.setPrefix_image (b : Bool) (s : State) : (State.setPrefix b s).image = s.image := rfl
@[simp] theorem State.setPrefix_monitor (b : Bool) (s : State) : (State.setPrefix b s).monitor = s.monitor := rfl
@[simp] theorem State.setPrefix_latches (b : Bool) (s : State) : (State.setPrefix b s).latches = s.latches := rfl
@[simp] theorem State.setPrefix_contain (b : Bool) (s : State) : (State.setPrefix b s).contain = s.contain := rfl
@[simp] theorem State.setPrefix_journal (b : Bool) (s : State) : (State.setPrefix b s).journal = s.journal := rfl
@[simp] theorem State.setPrefix_levels (b : Bool) (s : State) : (State.setPrefix b s).levels = s.levels := rfl
@[simp] theorem State.setPrefix_gate (b : Bool) (s : State) : (State.setPrefix b s).gate = s.gate := rfl
@[simp] theorem State.setPrefix_arbiter (b : Bool) (s : State) : (State.setPrefix b s).arbiter = s.arbiter := rfl
@[simp] theorem State.setPrefix_ports (b : Bool) (s : State) : (State.setPrefix b s).ports = s.ports := rfl
@[simp] theorem State.setPrefix_mgmt_engine (b : Bool) (s : State) :
    (State.setPrefix b s).mgmt.engine = s.mgmt.engine := rfl
@[simp] theorem State.setPrefix_mgmt_prefixArmed (b : Bool) (s : State) :
    (State.setPrefix b s).mgmt.prefixArmed = b := rfl
@[simp] theorem State.setPrefix_mgmt_staging (b : Bool) (s : State) :
    (State.setPrefix b s).mgmt.staging = s.mgmt.staging := rfl
@[simp] theorem State.setPrefix_mgmt_lastResult (b : Bool) (s : State) :
    (State.setPrefix b s).mgmt.lastResult = s.mgmt.lastResult := rfl
@[simp] theorem State.setPrefix_mgmt_detail (b : Bool) (s : State) :
    (State.setPrefix b s).mgmt.detail = s.mgmt.detail := rfl
@[simp] theorem State.setPrefix_mgmt_checkBegan (b : Bool) (s : State) :
    (State.setPrefix b s).mgmt.checkBegan = s.mgmt.checkBegan := rfl
@[simp] theorem State.setPrefix_notices (b : Bool) (s : State) : (State.setPrefix b s).notices = s.notices := rfl
@[simp] theorem State.setPrefix_time (b : Bool) (s : State) : (State.setPrefix b s).time = s.time := rfl
@[simp] theorem State.setPrefix_pending (b : Bool) (s : State) : (State.setPrefix b s).pending = s.pending := rfl
@[simp] theorem State.setStaging_tables (b : Option Staged) (s : State) :
    (State.setStaging b s).tables = s.tables := rfl
@[simp] theorem State.setStaging_image (b : Option Staged) (s : State) : (State.setStaging b s).image = s.image := rfl
@[simp] theorem State.setStaging_monitor (b : Option Staged) (s : State) :
    (State.setStaging b s).monitor = s.monitor := rfl
@[simp] theorem State.setStaging_latches (b : Option Staged) (s : State) :
    (State.setStaging b s).latches = s.latches := rfl
@[simp] theorem State.setStaging_contain (b : Option Staged) (s : State) :
    (State.setStaging b s).contain = s.contain := rfl
@[simp] theorem State.setStaging_journal (b : Option Staged) (s : State) :
    (State.setStaging b s).journal = s.journal := rfl
@[simp] theorem State.setStaging_levels (b : Option Staged) (s : State) :
    (State.setStaging b s).levels = s.levels := rfl
@[simp] theorem State.setStaging_gate (b : Option Staged) (s : State) : (State.setStaging b s).gate = s.gate := rfl
@[simp] theorem State.setStaging_arbiter (b : Option Staged) (s : State) :
    (State.setStaging b s).arbiter = s.arbiter := rfl
@[simp] theorem State.setStaging_ports (b : Option Staged) (s : State) : (State.setStaging b s).ports = s.ports := rfl
@[simp] theorem State.setStaging_mgmt_engine (b : Option Staged) (s : State) :
    (State.setStaging b s).mgmt.engine = s.mgmt.engine := rfl
@[simp] theorem State.setStaging_mgmt_prefixArmed (b : Option Staged) (s : State) :
    (State.setStaging b s).mgmt.prefixArmed = s.mgmt.prefixArmed := rfl
@[simp] theorem State.setStaging_mgmt_staging (b : Option Staged) (s : State) :
    (State.setStaging b s).mgmt.staging = b := rfl
@[simp] theorem State.setStaging_mgmt_lastResult (b : Option Staged) (s : State) :
    (State.setStaging b s).mgmt.lastResult = s.mgmt.lastResult := rfl
@[simp] theorem State.setStaging_mgmt_detail (b : Option Staged) (s : State) :
    (State.setStaging b s).mgmt.detail = s.mgmt.detail := rfl
@[simp] theorem State.setStaging_mgmt_checkBegan (b : Option Staged) (s : State) :
    (State.setStaging b s).mgmt.checkBegan = s.mgmt.checkBegan := rfl
@[simp] theorem State.setStaging_notices (b : Option Staged) (s : State) :
    (State.setStaging b s).notices = s.notices := rfl
@[simp] theorem State.setStaging_time (b : Option Staged) (s : State) : (State.setStaging b s).time = s.time := rfl
@[simp] theorem State.setStaging_pending (b : Option Staged) (s : State) :
    (State.setStaging b s).pending = s.pending := rfl
@[simp] theorem State.setResult_tables (r : Result) (s : State) : (State.setResult r s).tables = s.tables := rfl
@[simp] theorem State.setResult_image (r : Result) (s : State) : (State.setResult r s).image = s.image := rfl
@[simp] theorem State.setResult_monitor (r : Result) (s : State) : (State.setResult r s).monitor = s.monitor := rfl
@[simp] theorem State.setResult_latches (r : Result) (s : State) : (State.setResult r s).latches = s.latches := rfl
@[simp] theorem State.setResult_contain (r : Result) (s : State) : (State.setResult r s).contain = s.contain := rfl
@[simp] theorem State.setResult_journal (r : Result) (s : State) : (State.setResult r s).journal = s.journal := rfl
@[simp] theorem State.setResult_levels (r : Result) (s : State) : (State.setResult r s).levels = s.levels := rfl
@[simp] theorem State.setResult_gate (r : Result) (s : State) : (State.setResult r s).gate = s.gate := rfl
@[simp] theorem State.setResult_arbiter (r : Result) (s : State) : (State.setResult r s).arbiter = s.arbiter := rfl
@[simp] theorem State.setResult_ports (r : Result) (s : State) : (State.setResult r s).ports = s.ports := rfl
@[simp] theorem State.setResult_mgmt_engine (r : Result) (s : State) :
    (State.setResult r s).mgmt.engine = s.mgmt.engine := rfl
@[simp] theorem State.setResult_mgmt_prefixArmed (r : Result) (s : State) :
    (State.setResult r s).mgmt.prefixArmed = s.mgmt.prefixArmed := rfl
@[simp] theorem State.setResult_mgmt_staging (r : Result) (s : State) :
    (State.setResult r s).mgmt.staging = s.mgmt.staging := rfl
@[simp] theorem State.setResult_mgmt_lastResult (r : Result) (s : State) :
    (State.setResult r s).mgmt.lastResult = some r := rfl
@[simp] theorem State.setResult_mgmt_detail (r : Result) (s : State) :
    (State.setResult r s).mgmt.detail = s.mgmt.detail := rfl
@[simp] theorem State.setResult_mgmt_checkBegan (r : Result) (s : State) :
    (State.setResult r s).mgmt.checkBegan = s.mgmt.checkBegan := rfl
@[simp] theorem State.setResult_notices (r : Result) (s : State) : (State.setResult r s).notices = s.notices := rfl
@[simp] theorem State.setResult_time (r : Result) (s : State) : (State.setResult r s).time = s.time := rfl
@[simp] theorem State.setResult_pending (r : Result) (s : State) : (State.setResult r s).pending = s.pending := rfl
@[simp] theorem State.setDetail_tables (d : CheckDetail) (s : State) : (State.setDetail d s).tables = s.tables := rfl
@[simp] theorem State.setDetail_image (d : CheckDetail) (s : State) : (State.setDetail d s).image = s.image := rfl
@[simp] theorem State.setDetail_monitor (d : CheckDetail) (s : State) :
    (State.setDetail d s).monitor = s.monitor := rfl
@[simp] theorem State.setDetail_latches (d : CheckDetail) (s : State) :
    (State.setDetail d s).latches = s.latches := rfl
@[simp] theorem State.setDetail_contain (d : CheckDetail) (s : State) :
    (State.setDetail d s).contain = s.contain := rfl
@[simp] theorem State.setDetail_journal (d : CheckDetail) (s : State) :
    (State.setDetail d s).journal = s.journal := rfl
@[simp] theorem State.setDetail_levels (d : CheckDetail) (s : State) : (State.setDetail d s).levels = s.levels := rfl
@[simp] theorem State.setDetail_gate (d : CheckDetail) (s : State) : (State.setDetail d s).gate = s.gate := rfl
@[simp] theorem State.setDetail_arbiter (d : CheckDetail) (s : State) :
    (State.setDetail d s).arbiter = s.arbiter := rfl
@[simp] theorem State.setDetail_ports (d : CheckDetail) (s : State) : (State.setDetail d s).ports = s.ports := rfl
@[simp] theorem State.setDetail_mgmt_engine (d : CheckDetail) (s : State) :
    (State.setDetail d s).mgmt.engine = s.mgmt.engine := rfl
@[simp] theorem State.setDetail_mgmt_prefixArmed (d : CheckDetail) (s : State) :
    (State.setDetail d s).mgmt.prefixArmed = s.mgmt.prefixArmed := rfl
@[simp] theorem State.setDetail_mgmt_staging (d : CheckDetail) (s : State) :
    (State.setDetail d s).mgmt.staging = s.mgmt.staging := rfl
@[simp] theorem State.setDetail_mgmt_lastResult (d : CheckDetail) (s : State) :
    (State.setDetail d s).mgmt.lastResult = s.mgmt.lastResult := rfl
@[simp] theorem State.setDetail_mgmt_detail (d : CheckDetail) (s : State) :
    (State.setDetail d s).mgmt.detail = d := rfl
@[simp] theorem State.setDetail_mgmt_checkBegan (d : CheckDetail) (s : State) :
    (State.setDetail d s).mgmt.checkBegan = s.mgmt.checkBegan := rfl
@[simp] theorem State.setDetail_notices (d : CheckDetail) (s : State) :
    (State.setDetail d s).notices = s.notices := rfl
@[simp] theorem State.setDetail_time (d : CheckDetail) (s : State) : (State.setDetail d s).time = s.time := rfl
@[simp] theorem State.setDetail_pending (d : CheckDetail) (s : State) :
    (State.setDetail d s).pending = s.pending := rfl
@[simp] theorem State.setCheck_tables (c : Option Clock) (s : State) : (State.setCheck c s).tables = s.tables := rfl
@[simp] theorem State.setCheck_image (c : Option Clock) (s : State) : (State.setCheck c s).image = s.image := rfl
@[simp] theorem State.setCheck_monitor (c : Option Clock) (s : State) : (State.setCheck c s).monitor = s.monitor := rfl
@[simp] theorem State.setCheck_latches (c : Option Clock) (s : State) : (State.setCheck c s).latches = s.latches := rfl
@[simp] theorem State.setCheck_contain (c : Option Clock) (s : State) : (State.setCheck c s).contain = s.contain := rfl
@[simp] theorem State.setCheck_journal (c : Option Clock) (s : State) : (State.setCheck c s).journal = s.journal := rfl
@[simp] theorem State.setCheck_levels (c : Option Clock) (s : State) : (State.setCheck c s).levels = s.levels := rfl
@[simp] theorem State.setCheck_gate (c : Option Clock) (s : State) : (State.setCheck c s).gate = s.gate := rfl
@[simp] theorem State.setCheck_arbiter (c : Option Clock) (s : State) : (State.setCheck c s).arbiter = s.arbiter := rfl
@[simp] theorem State.setCheck_ports (c : Option Clock) (s : State) : (State.setCheck c s).ports = s.ports := rfl
@[simp] theorem State.setCheck_mgmt_engine (c : Option Clock) (s : State) :
    (State.setCheck c s).mgmt.engine = s.mgmt.engine := rfl
@[simp] theorem State.setCheck_mgmt_prefixArmed (c : Option Clock) (s : State) :
    (State.setCheck c s).mgmt.prefixArmed = s.mgmt.prefixArmed := rfl
@[simp] theorem State.setCheck_mgmt_staging (c : Option Clock) (s : State) :
    (State.setCheck c s).mgmt.staging = s.mgmt.staging := rfl
@[simp] theorem State.setCheck_mgmt_lastResult (c : Option Clock) (s : State) :
    (State.setCheck c s).mgmt.lastResult = s.mgmt.lastResult := rfl
@[simp] theorem State.setCheck_mgmt_detail (c : Option Clock) (s : State) :
    (State.setCheck c s).mgmt.detail = s.mgmt.detail := rfl
@[simp] theorem State.setCheck_mgmt_checkBegan (c : Option Clock) (s : State) :
    (State.setCheck c s).mgmt.checkBegan = c := rfl
@[simp] theorem State.setCheck_notices (c : Option Clock) (s : State) : (State.setCheck c s).notices = s.notices := rfl
@[simp] theorem State.setCheck_time (c : Option Clock) (s : State) : (State.setCheck c s).time = s.time := rfl
@[simp] theorem State.setCheck_pending (c : Option Clock) (s : State) : (State.setCheck c s).pending = s.pending := rfl
@[simp] theorem State.setNotices_tables (n : List Notice) (s : State) : (State.setNotices n s).tables = s.tables := rfl
@[simp] theorem State.setNotices_image (n : List Notice) (s : State) : (State.setNotices n s).image = s.image := rfl
@[simp] theorem State.setNotices_monitor (n : List Notice) (s : State) :
    (State.setNotices n s).monitor = s.monitor := rfl
@[simp] theorem State.setNotices_latches (n : List Notice) (s : State) :
    (State.setNotices n s).latches = s.latches := rfl
@[simp] theorem State.setNotices_contain (n : List Notice) (s : State) :
    (State.setNotices n s).contain = s.contain := rfl
@[simp] theorem State.setNotices_journal (n : List Notice) (s : State) :
    (State.setNotices n s).journal = s.journal := rfl
@[simp] theorem State.setNotices_levels (n : List Notice) (s : State) : (State.setNotices n s).levels = s.levels := rfl
@[simp] theorem State.setNotices_gate (n : List Notice) (s : State) : (State.setNotices n s).gate = s.gate := rfl
@[simp] theorem State.setNotices_arbiter (n : List Notice) (s : State) :
    (State.setNotices n s).arbiter = s.arbiter := rfl
@[simp] theorem State.setNotices_ports (n : List Notice) (s : State) : (State.setNotices n s).ports = s.ports := rfl
@[simp] theorem State.setNotices_mgmt (n : List Notice) (s : State) : (State.setNotices n s).mgmt = s.mgmt := rfl
@[simp] theorem State.setNotices_notices (n : List Notice) (s : State) : (State.setNotices n s).notices = n := rfl
@[simp] theorem State.setNotices_time (n : List Notice) (s : State) : (State.setNotices n s).time = s.time := rfl
@[simp] theorem State.setNotices_pending (n : List Notice) (s : State) :
    (State.setNotices n s).pending = s.pending := rfl
@[simp] theorem State.setWatch_tables (d : Option Clock) (s : State) : (State.setWatch d s).tables = s.tables := rfl
@[simp] theorem State.setWatch_image (d : Option Clock) (s : State) : (State.setWatch d s).image = s.image := rfl
@[simp] theorem State.setWatch_monitor (d : Option Clock) (s : State) : (State.setWatch d s).monitor = s.monitor := rfl
@[simp] theorem State.setWatch_latches (d : Option Clock) (s : State) : (State.setWatch d s).latches = s.latches := rfl
@[simp] theorem State.setWatch_contain (d : Option Clock) (s : State) : (State.setWatch d s).contain = s.contain := rfl
@[simp] theorem State.setWatch_journal (d : Option Clock) (s : State) : (State.setWatch d s).journal = s.journal := rfl
@[simp] theorem State.setWatch_levels (d : Option Clock) (s : State) : (State.setWatch d s).levels = s.levels := rfl
@[simp] theorem State.setWatch_gate (d : Option Clock) (s : State) : (State.setWatch d s).gate = s.gate := rfl
@[simp] theorem State.setWatch_arbiter (d : Option Clock) (s : State) : (State.setWatch d s).arbiter = s.arbiter := rfl
@[simp] theorem State.setWatch_ports (d : Option Clock) (s : State) : (State.setWatch d s).ports = s.ports := rfl
@[simp] theorem State.setWatch_mgmt (d : Option Clock) (s : State) : (State.setWatch d s).mgmt = s.mgmt := rfl
@[simp] theorem State.setWatch_notices (d : Option Clock) (s : State) : (State.setWatch d s).notices = s.notices := rfl
@[simp] theorem State.setWatch_time_clock (d : Option Clock) (s : State) :
    (State.setWatch d s).time.clock = s.time.clock := rfl
@[simp] theorem State.setWatch_time_watchDeadline (d : Option Clock) (s : State) :
    (State.setWatch d s).time.watchDeadline = d := rfl
@[simp] theorem State.setWatch_time_wakeOnTraffic (d : Option Clock) (s : State) :
    (State.setWatch d s).time.wakeOnTraffic = s.time.wakeOnTraffic := rfl
@[simp] theorem State.setWatch_time_silence (d : Option Clock) (s : State) :
    (State.setWatch d s).time.silence = s.time.silence := rfl
@[simp] theorem State.setWatch_time_ageDue (d : Option Clock) (s : State) :
    (State.setWatch d s).time.ageDue = s.time.ageDue := rfl
@[simp] theorem State.setWatch_time_creditDue (d : Option Clock) (s : State) :
    (State.setWatch d s).time.creditDue = s.time.creditDue := rfl
@[simp] theorem State.setWatch_pending (d : Option Clock) (s : State) : (State.setWatch d s).pending = s.pending := rfl
@[simp] theorem State.setSilence_tables (d : Option Clock) (s : State) :
    (State.setSilence d s).tables = s.tables := rfl
@[simp] theorem State.setSilence_image (d : Option Clock) (s : State) : (State.setSilence d s).image = s.image := rfl
@[simp] theorem State.setSilence_monitor (d : Option Clock) (s : State) :
    (State.setSilence d s).monitor = s.monitor := rfl
@[simp] theorem State.setSilence_latches (d : Option Clock) (s : State) :
    (State.setSilence d s).latches = s.latches := rfl
@[simp] theorem State.setSilence_contain (d : Option Clock) (s : State) :
    (State.setSilence d s).contain = s.contain := rfl
@[simp] theorem State.setSilence_journal (d : Option Clock) (s : State) :
    (State.setSilence d s).journal = s.journal := rfl
@[simp] theorem State.setSilence_levels (d : Option Clock) (s : State) :
    (State.setSilence d s).levels = s.levels := rfl
@[simp] theorem State.setSilence_gate (d : Option Clock) (s : State) : (State.setSilence d s).gate = s.gate := rfl
@[simp] theorem State.setSilence_arbiter (d : Option Clock) (s : State) :
    (State.setSilence d s).arbiter = s.arbiter := rfl
@[simp] theorem State.setSilence_ports (d : Option Clock) (s : State) : (State.setSilence d s).ports = s.ports := rfl
@[simp] theorem State.setSilence_mgmt (d : Option Clock) (s : State) : (State.setSilence d s).mgmt = s.mgmt := rfl
@[simp] theorem State.setSilence_notices (d : Option Clock) (s : State) :
    (State.setSilence d s).notices = s.notices := rfl
@[simp] theorem State.setSilence_time_clock (d : Option Clock) (s : State) :
    (State.setSilence d s).time.clock = s.time.clock := rfl
@[simp] theorem State.setSilence_time_watchDeadline (d : Option Clock) (s : State) :
    (State.setSilence d s).time.watchDeadline = s.time.watchDeadline := rfl
@[simp] theorem State.setSilence_time_wakeOnTraffic (d : Option Clock) (s : State) :
    (State.setSilence d s).time.wakeOnTraffic = s.time.wakeOnTraffic := rfl
@[simp] theorem State.setSilence_time_silence (d : Option Clock) (s : State) :
    (State.setSilence d s).time.silence = d := rfl
@[simp] theorem State.setSilence_time_ageDue (d : Option Clock) (s : State) :
    (State.setSilence d s).time.ageDue = s.time.ageDue := rfl
@[simp] theorem State.setSilence_time_creditDue (d : Option Clock) (s : State) :
    (State.setSilence d s).time.creditDue = s.time.creditDue := rfl
@[simp] theorem State.setSilence_pending (d : Option Clock) (s : State) :
    (State.setSilence d s).pending = s.pending := rfl
@[simp] theorem State.setTraffic_tables (b : Bool) (s : State) : (State.setTraffic b s).tables = s.tables := rfl
@[simp] theorem State.setTraffic_image (b : Bool) (s : State) : (State.setTraffic b s).image = s.image := rfl
@[simp] theorem State.setTraffic_monitor (b : Bool) (s : State) : (State.setTraffic b s).monitor = s.monitor := rfl
@[simp] theorem State.setTraffic_latches (b : Bool) (s : State) : (State.setTraffic b s).latches = s.latches := rfl
@[simp] theorem State.setTraffic_contain (b : Bool) (s : State) : (State.setTraffic b s).contain = s.contain := rfl
@[simp] theorem State.setTraffic_journal (b : Bool) (s : State) : (State.setTraffic b s).journal = s.journal := rfl
@[simp] theorem State.setTraffic_levels (b : Bool) (s : State) : (State.setTraffic b s).levels = s.levels := rfl
@[simp] theorem State.setTraffic_gate (b : Bool) (s : State) : (State.setTraffic b s).gate = s.gate := rfl
@[simp] theorem State.setTraffic_arbiter (b : Bool) (s : State) : (State.setTraffic b s).arbiter = s.arbiter := rfl
@[simp] theorem State.setTraffic_ports (b : Bool) (s : State) : (State.setTraffic b s).ports = s.ports := rfl
@[simp] theorem State.setTraffic_mgmt (b : Bool) (s : State) : (State.setTraffic b s).mgmt = s.mgmt := rfl
@[simp] theorem State.setTraffic_notices (b : Bool) (s : State) : (State.setTraffic b s).notices = s.notices := rfl
@[simp] theorem State.setTraffic_time_clock (b : Bool) (s : State) :
    (State.setTraffic b s).time.clock = s.time.clock := rfl
@[simp] theorem State.setTraffic_time_watchDeadline (b : Bool) (s : State) :
    (State.setTraffic b s).time.watchDeadline = s.time.watchDeadline := rfl
@[simp] theorem State.setTraffic_time_wakeOnTraffic (b : Bool) (s : State) :
    (State.setTraffic b s).time.wakeOnTraffic = b := rfl
@[simp] theorem State.setTraffic_time_silence (b : Bool) (s : State) :
    (State.setTraffic b s).time.silence = s.time.silence := rfl
@[simp] theorem State.setTraffic_time_ageDue (b : Bool) (s : State) :
    (State.setTraffic b s).time.ageDue = s.time.ageDue := rfl
@[simp] theorem State.setTraffic_time_creditDue (b : Bool) (s : State) :
    (State.setTraffic b s).time.creditDue = s.time.creditDue := rfl
@[simp] theorem State.setTraffic_pending (b : Bool) (s : State) : (State.setTraffic b s).pending = s.pending := rfl
@[simp] theorem State.setAgeDue_tables (b : Bool) (s : State) : (State.setAgeDue b s).tables = s.tables := rfl
@[simp] theorem State.setAgeDue_image (b : Bool) (s : State) : (State.setAgeDue b s).image = s.image := rfl
@[simp] theorem State.setAgeDue_monitor (b : Bool) (s : State) : (State.setAgeDue b s).monitor = s.monitor := rfl
@[simp] theorem State.setAgeDue_latches (b : Bool) (s : State) : (State.setAgeDue b s).latches = s.latches := rfl
@[simp] theorem State.setAgeDue_contain (b : Bool) (s : State) : (State.setAgeDue b s).contain = s.contain := rfl
@[simp] theorem State.setAgeDue_journal (b : Bool) (s : State) : (State.setAgeDue b s).journal = s.journal := rfl
@[simp] theorem State.setAgeDue_levels (b : Bool) (s : State) : (State.setAgeDue b s).levels = s.levels := rfl
@[simp] theorem State.setAgeDue_gate (b : Bool) (s : State) : (State.setAgeDue b s).gate = s.gate := rfl
@[simp] theorem State.setAgeDue_arbiter (b : Bool) (s : State) : (State.setAgeDue b s).arbiter = s.arbiter := rfl
@[simp] theorem State.setAgeDue_ports (b : Bool) (s : State) : (State.setAgeDue b s).ports = s.ports := rfl
@[simp] theorem State.setAgeDue_mgmt (b : Bool) (s : State) : (State.setAgeDue b s).mgmt = s.mgmt := rfl
@[simp] theorem State.setAgeDue_notices (b : Bool) (s : State) : (State.setAgeDue b s).notices = s.notices := rfl
@[simp] theorem State.setAgeDue_time_clock (b : Bool) (s : State) :
    (State.setAgeDue b s).time.clock = s.time.clock := rfl
@[simp] theorem State.setAgeDue_time_watchDeadline (b : Bool) (s : State) :
    (State.setAgeDue b s).time.watchDeadline = s.time.watchDeadline := rfl
@[simp] theorem State.setAgeDue_time_wakeOnTraffic (b : Bool) (s : State) :
    (State.setAgeDue b s).time.wakeOnTraffic = s.time.wakeOnTraffic := rfl
@[simp] theorem State.setAgeDue_time_silence (b : Bool) (s : State) :
    (State.setAgeDue b s).time.silence = s.time.silence := rfl
@[simp] theorem State.setAgeDue_time_ageDue (b : Bool) (s : State) : (State.setAgeDue b s).time.ageDue = b := rfl
@[simp] theorem State.setAgeDue_time_creditDue (b : Bool) (s : State) :
    (State.setAgeDue b s).time.creditDue = s.time.creditDue := rfl
@[simp] theorem State.setAgeDue_pending (b : Bool) (s : State) : (State.setAgeDue b s).pending = s.pending := rfl
@[simp] theorem State.setCreditDue_tables (b : Bool) (s : State) : (State.setCreditDue b s).tables = s.tables := rfl
@[simp] theorem State.setCreditDue_image (b : Bool) (s : State) : (State.setCreditDue b s).image = s.image := rfl
@[simp] theorem State.setCreditDue_monitor (b : Bool) (s : State) : (State.setCreditDue b s).monitor = s.monitor := rfl
@[simp] theorem State.setCreditDue_latches (b : Bool) (s : State) : (State.setCreditDue b s).latches = s.latches := rfl
@[simp] theorem State.setCreditDue_contain (b : Bool) (s : State) : (State.setCreditDue b s).contain = s.contain := rfl
@[simp] theorem State.setCreditDue_journal (b : Bool) (s : State) : (State.setCreditDue b s).journal = s.journal := rfl
@[simp] theorem State.setCreditDue_levels (b : Bool) (s : State) : (State.setCreditDue b s).levels = s.levels := rfl
@[simp] theorem State.setCreditDue_gate (b : Bool) (s : State) : (State.setCreditDue b s).gate = s.gate := rfl
@[simp] theorem State.setCreditDue_arbiter (b : Bool) (s : State) : (State.setCreditDue b s).arbiter = s.arbiter := rfl
@[simp] theorem State.setCreditDue_ports (b : Bool) (s : State) : (State.setCreditDue b s).ports = s.ports := rfl
@[simp] theorem State.setCreditDue_mgmt (b : Bool) (s : State) : (State.setCreditDue b s).mgmt = s.mgmt := rfl
@[simp] theorem State.setCreditDue_notices (b : Bool) (s : State) : (State.setCreditDue b s).notices = s.notices := rfl
@[simp] theorem State.setCreditDue_time_clock (b : Bool) (s : State) :
    (State.setCreditDue b s).time.clock = s.time.clock := rfl
@[simp] theorem State.setCreditDue_time_watchDeadline (b : Bool) (s : State) :
    (State.setCreditDue b s).time.watchDeadline = s.time.watchDeadline := rfl
@[simp] theorem State.setCreditDue_time_wakeOnTraffic (b : Bool) (s : State) :
    (State.setCreditDue b s).time.wakeOnTraffic = s.time.wakeOnTraffic := rfl
@[simp] theorem State.setCreditDue_time_silence (b : Bool) (s : State) :
    (State.setCreditDue b s).time.silence = s.time.silence := rfl
@[simp] theorem State.setCreditDue_time_ageDue (b : Bool) (s : State) :
    (State.setCreditDue b s).time.ageDue = s.time.ageDue := rfl
@[simp] theorem State.setCreditDue_time_creditDue (b : Bool) (s : State) :
    (State.setCreditDue b s).time.creditDue = b := rfl
@[simp] theorem State.setCreditDue_pending (b : Bool) (s : State) : (State.setCreditDue b s).pending = s.pending := rfl
@[simp] theorem State.setClock_tables (t : Clock) (s : State) : (State.setClock t s).tables = s.tables := rfl
@[simp] theorem State.setClock_image (t : Clock) (s : State) : (State.setClock t s).image = s.image := rfl
@[simp] theorem State.setClock_monitor (t : Clock) (s : State) : (State.setClock t s).monitor = s.monitor := rfl
@[simp] theorem State.setClock_latches (t : Clock) (s : State) : (State.setClock t s).latches = s.latches := rfl
@[simp] theorem State.setClock_contain (t : Clock) (s : State) : (State.setClock t s).contain = s.contain := rfl
@[simp] theorem State.setClock_journal (t : Clock) (s : State) : (State.setClock t s).journal = s.journal := rfl
@[simp] theorem State.setClock_levels (t : Clock) (s : State) : (State.setClock t s).levels = s.levels := rfl
@[simp] theorem State.setClock_gate (t : Clock) (s : State) : (State.setClock t s).gate = s.gate := rfl
@[simp] theorem State.setClock_arbiter (t : Clock) (s : State) : (State.setClock t s).arbiter = s.arbiter := rfl
@[simp] theorem State.setClock_ports (t : Clock) (s : State) : (State.setClock t s).ports = s.ports := rfl
@[simp] theorem State.setClock_mgmt (t : Clock) (s : State) : (State.setClock t s).mgmt = s.mgmt := rfl
@[simp] theorem State.setClock_notices (t : Clock) (s : State) : (State.setClock t s).notices = s.notices := rfl
@[simp] theorem State.setClock_time_clock (t : Clock) (s : State) : (State.setClock t s).time.clock = t := rfl
@[simp] theorem State.setClock_time_watchDeadline (t : Clock) (s : State) :
    (State.setClock t s).time.watchDeadline = s.time.watchDeadline := rfl
@[simp] theorem State.setClock_time_wakeOnTraffic (t : Clock) (s : State) :
    (State.setClock t s).time.wakeOnTraffic = s.time.wakeOnTraffic := rfl
@[simp] theorem State.setClock_time_silence (t : Clock) (s : State) :
    (State.setClock t s).time.silence = s.time.silence := rfl
@[simp] theorem State.setClock_time_ageDue (t : Clock) (s : State) :
    (State.setClock t s).time.ageDue = s.time.ageDue := rfl
@[simp] theorem State.setClock_time_creditDue (t : Clock) (s : State) :
    (State.setClock t s).time.creditDue = s.time.creditDue := rfl
@[simp] theorem State.setClock_pending (t : Clock) (s : State) : (State.setClock t s).pending = s.pending := rfl
@[simp] theorem State.setEngine_tables (e : Engine) (s : State) : (State.setEngine e s).tables = s.tables := rfl
@[simp] theorem State.setEngine_image (e : Engine) (s : State) : (State.setEngine e s).image = s.image := rfl
@[simp] theorem State.setEngine_monitor (e : Engine) (s : State) : (State.setEngine e s).monitor = s.monitor := rfl
@[simp] theorem State.setEngine_latches (e : Engine) (s : State) : (State.setEngine e s).latches = s.latches := rfl
@[simp] theorem State.setEngine_contain (e : Engine) (s : State) : (State.setEngine e s).contain = s.contain := rfl
@[simp] theorem State.setEngine_journal (e : Engine) (s : State) : (State.setEngine e s).journal = s.journal := rfl
@[simp] theorem State.setEngine_levels (e : Engine) (s : State) : (State.setEngine e s).levels = s.levels := rfl
@[simp] theorem State.setEngine_gate (e : Engine) (s : State) : (State.setEngine e s).gate = s.gate := rfl
@[simp] theorem State.setEngine_arbiter (e : Engine) (s : State) : (State.setEngine e s).arbiter = s.arbiter := rfl
@[simp] theorem State.setEngine_ports (e : Engine) (s : State) : (State.setEngine e s).ports = s.ports := rfl
@[simp] theorem State.setEngine_mgmt_engine (e : Engine) (s : State) : (State.setEngine e s).mgmt.engine = e := rfl
@[simp] theorem State.setEngine_mgmt_prefixArmed (e : Engine) (s : State) :
    (State.setEngine e s).mgmt.prefixArmed = s.mgmt.prefixArmed := rfl
@[simp] theorem State.setEngine_mgmt_staging (e : Engine) (s : State) :
    (State.setEngine e s).mgmt.staging = s.mgmt.staging := rfl
@[simp] theorem State.setEngine_mgmt_lastResult (e : Engine) (s : State) :
    (State.setEngine e s).mgmt.lastResult = s.mgmt.lastResult := rfl
@[simp] theorem State.setEngine_mgmt_detail (e : Engine) (s : State) :
    (State.setEngine e s).mgmt.detail = s.mgmt.detail := rfl
@[simp] theorem State.setEngine_mgmt_checkBegan (e : Engine) (s : State) :
    (State.setEngine e s).mgmt.checkBegan = s.mgmt.checkBegan := rfl
@[simp] theorem State.setEngine_notices (e : Engine) (s : State) : (State.setEngine e s).notices = s.notices := rfl
@[simp] theorem State.setEngine_time_clock (e : Engine) (s : State) :
    (State.setEngine e s).time.clock = s.time.clock := rfl
@[simp] theorem State.setEngine_time_watchDeadline (e : Engine) (s : State) :
    (State.setEngine e s).time.watchDeadline = s.time.watchDeadline := rfl
@[simp] theorem State.setEngine_time_wakeOnTraffic (e : Engine) (s : State) :
    (State.setEngine e s).time.wakeOnTraffic = s.time.wakeOnTraffic := rfl
@[simp] theorem State.setEngine_time_silence (e : Engine) (s : State) :
    (State.setEngine e s).time.silence = s.time.silence := rfl
@[simp] theorem State.setEngine_time_ageDue (e : Engine) (s : State) :
    (State.setEngine e s).time.ageDue = s.time.ageDue := rfl
@[simp] theorem State.setEngine_time_creditDue (e : Engine) (s : State) :
    (State.setEngine e s).time.creditDue = false := rfl
@[simp] theorem State.setEngine_pending (e : Engine) (s : State) : (State.setEngine e s).pending = s.pending := rfl

end Sys2Proof.Machine
end

