-- ==== Sys2Proof/Laws/Gate.lean ====
section
/-! SUPPORT. What the operations of the order gate and of the room list can do, said once: `GateFrame`. -/

namespace Sys2Proof.Machine

/-- What a gate operation leaves as it was, and what it keeps: it moves owners, held slots, hand-backs, queued frames, the
room list, the wait of a level whose order was appended, and it may answer the waiting controller frame. -/
structure State.GateFrame (s t : State) : Prop where
  tables    : t.tables = s.tables
  image     : t.image = s.image
  monitor   : t.monitor = s.monitor
  latches   : t.latches = s.latches
  contain   : t.contain = s.contain
  journal   : t.journal = s.journal
  mgmt      : t.mgmt = s.mgmt
  notices   : t.notices = s.notices
  time      : t.time = s.time
  pending   : t.pending = s.pending
  levels    : t.levels.map (fun l => { l with wait := WaitKind.none }) =
                s.levels.map fun l => { l with wait := WaitKind.none }
  ctlMask   : t.gate.ctlMask = s.gate.ctlMask
  planMask  : t.gate.planMask = s.gate.planMask
  lock      : t.gate.lock = s.gate.lock
  forced    : ∀ i, (t.gateAt i).forceOffDue = (s.gateAt i).forceOffDue ∧ (t.gateAt i).deferred = (s.gateAt i).deferred
  served    : t.arbiter.lastServed = s.arbiter.lastServed
  queueCap  : s.arbiter.queue.length ≤ 16 → t.arbiter.queue.length ≤ 16
  queueForm : s.QueueForm → t.QueueForm
  sending   : t.ports.sending = s.ports.sending
  trans     : t.ports.trans = s.ports.trans
  misses    : t.ports.misses = s.ports.misses
  phase     : t.ports.phase = s.ports.phase
  sticky    : t.ports.sticky = s.ports.sticky
  answered  : (t.ports.cport = s.ports.cport ∧ t.arbiter.waiting = s.arbiter.waiting) ∨
                (s.arbiter.waiting.isSome = true ∧ t.arbiter.waiting = none ∧ ∃ f, t.ports.cport = .replying f)

theorem State.GateFrame.refl (s : State) : s.GateFrame s := by
  constructor <;> first | rfl | exact fun h => h | simp

theorem State.GateFrame.trans' {s t u : State} (h : s.GateFrame t) (g : t.GateFrame u) : s.GateFrame u where
  tables := g.tables.trans h.tables
  image := g.image.trans h.image
  monitor := g.monitor.trans h.monitor
  latches := g.latches.trans h.latches
  contain := g.contain.trans h.contain
  journal := g.journal.trans h.journal
  mgmt := g.mgmt.trans h.mgmt
  notices := g.notices.trans h.notices
  time := g.time.trans h.time
  pending := g.pending.trans h.pending
  levels := g.levels.trans h.levels
  ctlMask := g.ctlMask.trans h.ctlMask
  planMask := g.planMask.trans h.planMask
  lock := g.lock.trans h.lock
  forced i := ⟨(g.forced i).1.trans (h.forced i).1, (g.forced i).2.trans (h.forced i).2⟩
  served := g.served.trans h.served
  queueCap q := g.queueCap (h.queueCap q)
  queueForm q := g.queueForm (h.queueForm q)
  sending := g.sending.trans h.sending
  trans := g.trans.trans h.trans
  misses := g.misses.trans h.misses
  phase := g.phase.trans h.phase
  sticky := g.sticky.trans h.sticky
  answered := by
    rcases h.answered with ⟨a, b⟩ | ⟨a, b, f, c⟩ <;> rcases g.answered with ⟨a', b'⟩ | ⟨a', b', f', c'⟩
    · exact .inl ⟨a'.trans a, b'.trans b⟩
    · exact .inr ⟨b ▸ a', b', f', c'⟩
    · exact .inr ⟨a, b'.trans b, f, a'.trans c⟩
    · simp [b] at a'

/-! ### The primitive updates -/

theorem State.gateAt_modGate (i j : Nat) (f : GateCell → GateCell) (s : State) :
    (s.modGate i f).gateAt j = if i = j ∧ j < 64 then f (s.gateAt j) else s.gateAt j := by
  simp only [State.gateAt, State.modGate, Vector.getElem?_setIfInBounds]
  by_cases h : i = j
  · subst h
    by_cases g : i < 64
    · simp [g]
    · simp [g]
  · simp [h]

theorem State.modGate_frame (i : Nat) (f : GateCell → GateCell) (s : State)
    (hf : ∀ c, (f c).forceOffDue = c.forceOffDue ∧ (f c).deferred = c.deferred) : s.GateFrame (s.modGate i f) := by
  constructor
  case forced =>
    intro j
    rw [State.gateAt_modGate]
    split
    · exact hf _
    · exact ⟨rfl, rfl⟩
  all_goals first | rfl | exact fun h => h | simp

theorem State.setRoom_frame (r : List RoomEntry) (s : State) : s.GateFrame (s.setRoom r) := by
  constructor <;> first | rfl | exact fun h => h | simp [State.gateAt]

theorem State.bumpSeq_frame (s : State) : s.GateFrame s.bumpSeq := by
  constructor <;> first | rfl | exact fun h => h | simp [State.gateAt]

theorem State.setQueue_frame (q : List QFrame) (s : State) (hc : s.arbiter.queue.length ≤ 16 → q.length ≤ 16)
    (hq : s.QueueForm → ∀ x ∈ q, (x.origin = .phase ↔ x.frame.kind = Kind.phase) ∧ ∀ c, x.origin ≠ .controller c) :
    s.GateFrame (s.setQueue q) := by
  constructor
  case queueCap => exact hc
  case queueForm => exact hq
  all_goals first | rfl | exact fun h => h | simp [State.gateAt]

/-- The queue after one more frame. -/
theorem State.appendFrame_queue (f : Sys2Proof.Frame) (o : Origin) (s : State) :
    (s.appendFrame f o).arbiter.queue = s.arbiter.queue ++ [{ frame := f, origin := o }] := rfl

theorem State.appendFrame_frame (f : Sys2Proof.Frame) (o : Origin) (s : State) (hr : s.queueHasRoom = true)
    (ho : (o = .phase ↔ f.kind = Kind.phase) ∧ ∀ c, o ≠ .controller c) : s.GateFrame (s.appendFrame f o) := by
  apply State.setQueue_frame
  · intro _
    simp [State.queueHasRoom] at hr
    simp; omega
  · intro h x hx
    rcases List.mem_append.1 hx with h1 | h1
    · exact h x h1
    · simp at h1; subst h1; exact ho

theorem State.appendOrder_frame (i : Nat) (v : Half) (o : Origin) (s : State) (hr : s.queueHasRoom = true)
    (hp : o ≠ .phase) (hc : ∀ c, o ≠ .controller c) : s.GateFrame (s.appendOrder i v o) := by
  unfold State.appendOrder
  split
  · refine (State.appendFrame_frame _ _ _ hr ⟨⟨fun h => absurd h hp, fun h => ?_⟩, hc⟩).trans' (State.bumpSeq_frame _)
    simp [State.engineFrame] at h
  · exact .refl s

theorem State.appendPoll_frame (i : Nat) (o : Origin) (s : State) (hr : s.queueHasRoom = true)
    (hp : o ≠ .phase) (hc : ∀ c, o ≠ .controller c) : s.GateFrame (s.appendPoll i o) := by
  unfold State.appendPoll
  split
  · refine (State.appendFrame_frame _ _ _ hr ⟨⟨fun h => absurd h hp, fun h => ?_⟩, hc⟩).trans' (State.bumpSeq_frame _)
    simp [State.engineFrame] at h
  · exact .refl s

/-- The waiting controller frame is answered by the gate. -/
theorem State.answer_frame (f : Sys2Proof.Frame) (s : State) (h : s.arbiter.waiting.isSome = true) :
    s.GateFrame ((s.setWaiting none).reply f) := by
  constructor
  case answered => exact .inr ⟨h, rfl, _, rfl⟩
  all_goals first | rfl | exact fun h => h | simp [State.gateAt, State.reply]

/-! ### The same after a framed operation -/

section
variable {s t : State} (h : s.GateFrame t)
include h

theorem State.GateFrame.modGate (i : Nat) (f : GateCell → GateCell)
    (hf : ∀ c, (f c).forceOffDue = c.forceOffDue ∧ (f c).deferred = c.deferred) : s.GateFrame (t.modGate i f) :=
  h.trans' (t.modGate_frame i f hf)

theorem State.GateFrame.setRoom (r : List RoomEntry) : s.GateFrame (t.setRoom r) := h.trans' (t.setRoom_frame r)

theorem State.GateFrame.removeRoom (p : RoomEntry → Bool) : s.GateFrame (t.removeRoom p) := h.setRoom _

theorem State.GateFrame.answer (f : Sys2Proof.Frame) (hw : t.arbiter.waiting.isSome = true) :
    s.GateFrame ((t.setWaiting none).reply f) := h.trans' (t.answer_frame f hw)

theorem State.GateFrame.appendOrder (i : Nat) (v : Half) (o : Origin) (hr : t.queueHasRoom = true)
    (hp : o ≠ .phase) (hc : ∀ c, o ≠ .controller c) : s.GateFrame (t.appendOrder i v o) :=
  h.trans' (t.appendOrder_frame i v o hr hp hc)

/-! ### Replays, hand-backs and the room list -/

theorem State.GateFrame.decideReplay (i : Nat) (hr : t.queueHasRoom = true) : s.GateFrame (t.decideReplay i) := by
  unfold State.decideReplay
  split
  · split
    · exact h.modGate _ _ (by exact fun _ => ⟨rfl, rfl⟩)
    · exact h.appendOrder _ _ _ hr (by simp) (by simp)
  · exact h

theorem State.GateFrame.appendHandBack (i : Nat) (hr : t.queueHasRoom = true) : s.GateFrame (t.appendHandBack i) := by
  unfold State.appendHandBack
  split
  · exact (h.appendOrder _ _ _ hr (by simp) (by simp)).modGate _ _ (by exact fun _ => ⟨rfl, rfl⟩)
  · exact h

omit h in
theorem State.roomBecomesAck_frame (d : Nat) (s : State) : s.GateFrame (s.roomBecomesAck d) := by
  constructor
  case levels =>
    simp only [State.roomBecomesAck, State.setLevels_levels]
    apply List.ext_getElem?
    intro k
    simp only [List.getElem?_map, List.getElem?_modify]
    by_cases e : d = k
    · cases g : s.levels[k]? with
      | none => simp
      | some l => simp only [e, if_true, Option.map_eq_map, Option.map_some]; split <;> rfl
    · simp [e]
  all_goals first | rfl | exact fun h => h | simp [State.gateAt, State.roomBecomesAck]

theorem State.GateFrame.appendRoomEntry (e : RoomEntry) (hr : t.queueHasRoom = true) :
    s.GateFrame (t.appendRoomEntry e) := by
  unfold State.appendRoomEntry
  split
  · exact (h.appendOrder _ _ _ hr (by simp) (by simp)).trans' (State.roomBecomesAck_frame _ _)
  · exact h.decideReplay _ hr
  · exact h.appendHandBack _ hr

omit h in
theorem fillFrom_frame (es : List RoomEntry) (h : s.GateFrame t) : s.GateFrame (fillFrom es t) := by
  induction es generalizing t with
  | nil => exact h.setRoom _
  | cons e es ih =>
    unfold fillFrom
    split
    · exact ih (h.appendRoomEntry e ‹_›)
    · exact h.setRoom _

theorem State.GateFrame.fillRoom : s.GateFrame t.fillRoom := fillFrom_frame _ h

theorem State.GateFrame.removeQueued (p : QFrame → Bool) : s.GateFrame (t.removeQueued p) := by
  unfold State.removeQueued
  refine (h.trans' (State.setQueue_frame _ _ ?_ ?_)).fillRoom
  · intro g
    exact (List.length_filter_le _ _).trans g
  · intro g x hx
    exact g x (List.mem_filter.1 hx).1

theorem State.GateFrame.dropHandBack (i : Nat) : s.GateFrame (t.dropHandBack i) := by
  unfold State.dropHandBack
  exact ((h.modGate _ _ (by exact fun _ => ⟨rfl, rfl⟩)).removeRoom _).removeQueued _

theorem State.GateFrame.setOwner (i : Nat) (o : Owner) : s.GateFrame (t.setOwner i o) := by
  unfold State.setOwner
  split
  · exact h
  · exact (h.modGate _ _ (by exact fun _ => ⟨rfl, rfl⟩)).dropHandBack _

theorem State.GateFrame.prepareReplay (i : Nat) : s.GateFrame (t.prepareReplay i) := by
  unfold State.prepareReplay
  split
  · exact h.decideReplay _ ‹_›
  · exact h.setRoom _

theorem State.GateFrame.toController (i : Nat) : s.GateFrame (t.toController i) := by
  unfold State.toController
  have g := h.setOwner i .controller
  dsimp only
  split
  · exact (g.modGate _ _ (by exact fun _ => ⟨rfl, rfl⟩)).prepareReplay _
  · exact g

theorem State.GateFrame.handBackTo (i d : Nat) (v : Half) : s.GateFrame (t.handBackTo i d v) := by
  unfold State.handBackTo
  have g := (h.setOwner i (.level d)).modGate i (fun c => { c with handBack := some v })
    fun _ => ⟨rfl, rfl⟩
  dsimp only
  split
  · exact g.appendHandBack _ ‹_›
  · exact g.setRoom _

/-! ### Held orders and the waiting controller frame -/

theorem State.GateFrame.holdOrder (i : Nat) (v : Half) : s.GateFrame (t.holdOrder i v) := by
  unfold State.holdOrder
  exact h.modGate _ _ (by exact fun _ => ⟨rfl, rfl⟩)

theorem State.GateFrame.replayEnded (i : Nat) : s.GateFrame (t.replayEnded i) := by
  unfold State.replayEnded
  split
  · exact h.modGate _ _ (by exact fun _ => ⟨rfl, rfl⟩)
  · exact h

theorem State.GateFrame.dropReplay (i : Nat) : s.GateFrame (t.dropReplay i) := by
  unfold State.dropReplay
  split
  · exact (h.removeRoom _).removeQueued _
  · exact h

theorem State.GateFrame.replayTakenBack (i : Nat) : s.GateFrame (t.replayTakenBack i) := by
  unfold State.replayTakenBack
  split
  · exact h.modGate _ _ (by exact fun _ => ⟨rfl, rfl⟩)
  · exact h

theorem State.GateFrame.supersedeReplay (i : Nat) : s.GateFrame (t.supersedeReplay i) := (h.replayEnded i).dropReplay i

theorem State.GateFrame.recallReplay (i : Nat) : s.GateFrame (t.recallReplay i) := by
  unfold State.recallReplay
  split
  · exact (h.replayTakenBack i).dropReplay i
  · exact h

omit h in
theorem State.withdrawForPlan_frame (i : Nat) (s : State) : s.GateFrame (s.withdrawForPlan i) := by
  unfold State.withdrawForPlan
  split
  · rename_i req j v w
    split
    · have hs : s.arbiter.waiting.isSome = true := by rw [w]; rfl
      constructor
      case forced =>
        intro k
        have e : ((((s.setWaiting none).holdOrder i req.orderValue).answerGate i req AckStatus.held).gateAt k) =
            (s.modGate i fun c => { c with held := .held req.orderValue }).gateAt k := rfl
        rw [e, State.gateAt_modGate]
        split <;> exact ⟨rfl, rfl⟩
      case answered => exact .inr ⟨hs, rfl, _, rfl⟩
      all_goals first | rfl | exact fun h => h
    · exact .refl s
  · exact .refl s

omit h in
theorem State.withdrawForLockout_frame (s : State) : s.GateFrame s.withdrawForLockout := by
  unfold State.withdrawForLockout
  split
  · exact State.answer_frame _ _ (by simp [*])
  · exact State.answer_frame _ _ (by simp [*])
  · exact State.answer_frame _ _ (by simp [*])
  · exact .refl s

theorem State.GateFrame.takeChannel (i d : Nat) : s.GateFrame (t.takeChannel i d) := by
  unfold State.takeChannel
  exact ((h.setOwner _ _).recallReplay _).trans' (State.withdrawForPlan_frame _ _)

end

end Sys2Proof.Machine
end

