-- ==== Sys2Proof/Laws/Executor.lean ====
section
/-! SUPPORT. What the plan executor can do, said once: `ExecutorFrame`, from the smallest operation to a whole task. -/

namespace Sys2Proof.Machine

/-- What the executor leaves as it was, and what it keeps: it moves levels, latches, notices, RERUN marks and overlaps,
what the gate operations move, and the origin of a plan order on the line. -/
structure State.ExecutorFrame (s t : State) : Prop where
  tables    : t.tables = s.tables
  image     : t.image = s.image
  monitor   : t.monitor = s.monitor
  contain   : t.contain = s.contain
  mgmt      : t.mgmt = s.mgmt
  time      : t.time = s.time
  pending   : t.pending = s.pending
  journal   : { t.journal with racks := [] } = { s.journal with racks := [] }
  racks     : t.journal.racks.map (fun r => { r with rerun := false, overlap := none }) =
                s.journal.racks.map fun r => { r with rerun := false, overlap := none }
  latches   : ∀ c, (t.latchAt c).count = (s.latchAt c).count ∧ (t.latchAt c).firstCause = (s.latchAt c).firstCause
  notices   : s.notices ≠ [] → t.notices ≠ []
  noticeCap : s.notices.length ≤ 16 → t.notices.length ≤ 16
  ctlMask   : t.gate.ctlMask = s.gate.ctlMask
  planMask  : t.gate.planMask = s.gate.planMask
  lock      : t.gate.lock = s.gate.lock
  forced    : ∀ i, (t.gateAt i).forceOffDue = (s.gateAt i).forceOffDue ∧ (t.gateAt i).deferred = (s.gateAt i).deferred
  served    : t.arbiter.lastServed = s.arbiter.lastServed
  queueCap  : s.arbiter.queue.length ≤ 16 → t.arbiter.queue.length ≤ 16
  queueForm : s.QueueForm → t.QueueForm
  sending   : t.ports.sending = s.ports.sending
  trans     : t.ports.trans.map (fun x => { x with origin := .phase }) =
                s.ports.trans.map fun x => { x with origin := .phase }
  origin    : ∀ x, s.ports.trans = some x → (∀ d st i, x.origin ≠ .plan d st i) → t.ports.trans = s.ports.trans
  orphan    : ∀ x d st i, s.ports.trans = some x → x.origin = .plan d st i →
                t.ports.trans = s.ports.trans ∨ t.ports.trans = some { x with origin := .planOrphan i }
  misses    : t.ports.misses = s.ports.misses
  phase     : t.ports.phase = s.ports.phase
  sticky    : t.ports.sticky = s.ports.sticky
  answered  : (t.ports.cport = s.ports.cport ∧ t.arbiter.waiting = s.arbiter.waiting) ∨
                (s.arbiter.waiting.isSome = true ∧ t.arbiter.waiting = none ∧ ∃ f, t.ports.cport = .replying f)

theorem State.GateFrame.executor {s t : State} (h : s.GateFrame t) : s.ExecutorFrame t where
  tables := h.tables
  image := h.image
  monitor := h.monitor
  contain := h.contain
  mgmt := h.mgmt
  time := h.time
  pending := h.pending
  journal := by rw [h.journal]
  racks := by rw [h.journal]
  latches c := by simp [State.latchAt, h.latches]
  notices := by rw [h.notices]; exact id
  noticeCap := by rw [h.notices]; exact id
  ctlMask := h.ctlMask
  planMask := h.planMask
  lock := h.lock
  forced := h.forced
  served := h.served
  queueCap := h.queueCap
  queueForm := h.queueForm
  sending := h.sending
  trans := by rw [h.trans]
  origin _ _ _ := h.trans
  orphan _ _ _ _ _ _ := .inl h.trans
  misses := h.misses
  phase := h.phase
  sticky := h.sticky
  answered := h.answered

theorem State.ExecutorFrame.refl (s : State) : s.ExecutorFrame s := (State.GateFrame.refl s).executor

theorem State.ExecutorFrame.trans' {s t u : State} (h : s.ExecutorFrame t) (g : t.ExecutorFrame u) :
    s.ExecutorFrame u where
  tables := g.tables.trans h.tables
  image := g.image.trans h.image
  monitor := g.monitor.trans h.monitor
  contain := g.contain.trans h.contain
  mgmt := g.mgmt.trans h.mgmt
  time := g.time.trans h.time
  pending := g.pending.trans h.pending
  journal := g.journal.trans h.journal
  racks := g.racks.trans h.racks
  latches c := ⟨(g.latches c).1.trans (h.latches c).1, (g.latches c).2.trans (h.latches c).2⟩
  notices x := g.notices (h.notices x)
  noticeCap x := g.noticeCap (h.noticeCap x)
  ctlMask := g.ctlMask.trans h.ctlMask
  planMask := g.planMask.trans h.planMask
  lock := g.lock.trans h.lock
  forced i := ⟨(g.forced i).1.trans (h.forced i).1, (g.forced i).2.trans (h.forced i).2⟩
  served := g.served.trans h.served
  queueCap q := g.queueCap (h.queueCap q)
  queueForm q := g.queueForm (h.queueForm q)
  sending := g.sending.trans h.sending
  trans := g.trans.trans h.trans
  origin x e o := by
    have a := h.origin x e o
    exact (g.origin x (a.trans e) o).trans a
  orphan x d st i e o := by
    rcases h.orphan x d st i e o with a | a
    · rcases g.orphan x d st i (a.trans e) o with b | b
      · exact .inl (b.trans a)
      · exact .inr b
    · exact .inr ((g.origin _ a (by simp)).trans a)
  misses := g.misses.trans h.misses
  phase := g.phase.trans h.phase
  sticky := g.sticky.trans h.sticky
  answered := by
    rcases h.answered with ⟨a, b⟩ | ⟨a, b, f, c⟩ <;> rcases g.answered with ⟨a', b'⟩ | ⟨a', b', f', c'⟩
    · exact .inl ⟨a'.trans a, b'.trans b⟩
    · exact .inr ⟨b ▸ a', b', f', c'⟩
    · exact .inr ⟨a, b'.trans b, f, a'.trans c⟩
    · simp [b] at a'

/-! ### Notices -/

theorem markOverflow_length (q : List Notice) : (markOverflow q).length = q.length := by
  induction q with
  | nil => rfl
  | cons n q ih =>
    cases q with
    | nil => rfl
    | cons m q => simp only [markOverflow, List.length_cons] at ih ⊢; omega

theorem pushNotice_length (q : List Notice) (n : Notice) :
    (pushNotice q n).length = min 16 (q.length + 1) ∨ (16 ≤ q.length ∧ (pushNotice q n).length = q.length) := by
  unfold pushNotice
  split
  · left; simp at *; omega
  · right; rw [markOverflow_length]; simp at *; omega

theorem pushNotice_ne_nil (q : List Notice) (n : Notice) : pushNotice q n ≠ [] := by
  intro h
  have := pushNotice_length q n
  rw [h] at this
  simp at this
  omega

/-! ### The executor's own updates, after a framed operation -/

section
variable {s t : State} (h : s.ExecutorFrame t)
include h

theorem State.ExecutorFrame.gate {u : State} (g : t.GateFrame u) : s.ExecutorFrame u := h.trans' g.executor

theorem State.ExecutorFrame.setLevels (l : List Level) : s.ExecutorFrame (t.setLevels l) := by
  refine h.trans' ?_
  constructor <;> first | rfl | exact fun h => h | simp [State.gateAt, State.latchAt]

theorem State.ExecutorFrame.modTop (f : Level → Level) : s.ExecutorFrame (t.modTop f) := h.setLevels _

theorem State.ExecutorFrame.waitFor (k : WaitKind) (p : Nat) (d : Option Clock) : s.ExecutorFrame (t.waitFor k p d) :=
  h.modTop _

theorem State.ExecutorFrame.setRoom (r : List RoomEntry) : s.ExecutorFrame (t.setRoom r) := h.gate (t.setRoom_frame r)

theorem State.ExecutorFrame.notify (k : NoticeKind) (a b c : Half) : s.ExecutorFrame (t.notify k a b c) := by
  refine h.trans' ?_
  constructor
  case notices => exact fun _ => pushNotice_ne_nil _ _
  case noticeCap =>
    intro hc
    have := pushNotice_length t.notices { kind := k, time := t.now, a := a, b := b, c := c, overflowed := false }
    show (pushNotice t.notices _).length ≤ 16
    omega
  all_goals first | rfl | exact fun h => h | simp [State.gateAt, State.latchAt, State.notify, State.notifyAt]

theorem State.ExecutorFrame.setLatch (c : Nat) (l : Latch) (hc : l.count = (t.latchAt c).count)
    (hf : l.firstCause = (t.latchAt c).firstCause) : s.ExecutorFrame (t.setLatch c l) := by
  refine h.trans' ?_
  constructor
  case latches =>
    intro d
    simp only [State.latchAt, State.setLatch_latches, Vector.getElem?_setIfInBounds] at *
    by_cases e : c = d
    · subst e
      by_cases g : c < 12
      · simp [g, hc, hf]
      · simp [g]
    · simp [e]
  all_goals first | rfl | exact fun h => h | simp [State.gateAt]

/-- Marks and overlaps are all that changes in the journal. -/
theorem State.ExecutorFrame.setJournal (j : Journal) (hj : { j with racks := [] } = { t.journal with racks := [] })
    (hr : j.racks.map (fun r => { r with rerun := false, overlap := none }) =
      t.journal.racks.map fun r => { r with rerun := false, overlap := none }) : s.ExecutorFrame (t.setJournal j) := by
  refine h.trans' ?_
  constructor
  case journal => exact hj
  case racks => exact hr
  all_goals first | rfl | exact fun h => h | simp [State.gateAt, State.latchAt]

theorem State.ExecutorFrame.markRerun (a b : Nat) : s.ExecutorFrame (t.markRerun a b) := by
  unfold State.markRerun
  refine h.setJournal _ rfl ?_
  simp only [List.map_map]
  apply List.map_congr_left
  intro r _
  simp only [Function.comp_apply]
  split <;> rfl

theorem State.ExecutorFrame.autoMark (c z : Nat) (k : Clock) : s.ExecutorFrame (t.autoMark c z k) := by
  unfold State.autoMark
  refine h.setJournal _ rfl ?_
  simp only [List.map_map]
  apply List.map_congr_left
  intro r _
  simp only [Function.comp_apply]
  split <;> rfl

theorem State.ExecutorFrame.orphanTrans (d : Nat) : s.ExecutorFrame (t.orphanTrans d) := by
  refine h.trans' ?_
  unfold State.orphanTrans
  split
  · rename_i x e
    split
    · rename_i d' st i o
      split
      · constructor
        case trans => simp [e]
        case origin => intro y ey oy; rw [e] at ey; cases ey; exact absurd o (oy _ _ _)
        case orphan =>
          intro y d2 st2 i2 ey oy
          rw [e] at ey; cases ey
          rw [o] at oy; cases oy
          exact .inr rfl
        all_goals first | rfl | exact fun h => h | simp [State.gateAt, State.latchAt]
      · exact .refl t
    · exact .refl t
  · exact .refl t

theorem State.ExecutorFrame.placeOrder (i : Nat) (v : Half) (p : Nat) : s.ExecutorFrame (t.placeOrder i v p) := by
  unfold State.placeOrder
  split
  · exact h
  · rename_i l _
    have g := (h.gate ((State.GateFrame.refl t).takeChannel i t.topDepth)).modTop
      (fun l => { l with touched := touch i v l.touched })
    dsimp only
    split
    · rename_i hr
      exact (g.gate ((State.GateFrame.refl _).appendOrder _ _ _ hr (by simp) (by simp))).waitFor _ _ _
    · exact (g.setRoom _).waitFor _ _ _

theorem State.ExecutorFrame.passOn (i d : Nat) : s.ExecutorFrame (t.passOn i d) := by
  unfold State.passOn
  split
  · exact h.gate ((State.GateFrame.refl t).handBackTo _ _ _)
  · exact h.gate ((State.GateFrame.refl t).toController _)

theorem State.ExecutorFrame.releaseChannel (i : Nat) : s.ExecutorFrame (t.releaseChannel i) := by
  unfold State.releaseChannel
  dsimp only
  split
  · exact (h.modTop _).passOn _ _
  · exact h.modTop _

/-- A task's outcome is framed when its state is. -/
theorem State.ExecutorFrame.foldl (l : List Nat) (f : State → Nat → State)
    (hf : ∀ (u : State) (i : Nat), s.ExecutorFrame u → s.ExecutorFrame (f u i)) : s.ExecutorFrame (l.foldl f t) := by
  induction l generalizing t with
  | nil => exact h
  | cons i l ih => exact ih (hf t i h)

theorem State.ExecutorFrame.finishLevel (l : Level) (ok : Bool) (at_ : Nat) :
    s.ExecutorFrame (t.finishLevel l ok at_) := by
  unfold State.finishLevel
  dsimp only
  refine ((((h.modTop _).setLatch _ _ ?_ ?_).notify _ _ _ _).orphanTrans _).setLevels _ <;> rfl

theorem State.ExecutorFrame.endOk (at_ : Nat) : s.ExecutorFrame (t.endOk at_).2 := by
  unfold State.endOk
  split
  · exact h
  · exact (h.foldl _ _ fun u i g => g.passOn i _).finishLevel _ _ _

theorem State.ExecutorFrame.endFail : s.ExecutorFrame t.endFail.2 := by
  unfold State.endFail
  split
  · exact h
  · exact (h.foldl _ _ fun u i g => g.gate ((State.GateFrame.refl u).setOwner i _)).finishLevel _ _ _

theorem State.ExecutorFrame.advance : s.ExecutorFrame t.advance.2 := by
  unfold State.advance
  split
  · exact h
  · dsimp only
    split
    · exact (h.waitFor _ _ _).modTop _
    · exact (h.waitFor _ _ _).endOk _

theorem State.ExecutorFrame.moveToFail (f : Option Nat) : s.ExecutorFrame (t.moveToFail f).2 := by
  unfold State.moveToFail
  dsimp only
  split
  · exact (h.waitFor _ _ _).modTop _
  · exact (h.waitFor _ _ _).endFail

theorem State.ExecutorFrame.failStep (l : Level) (sl : PlanSlot) (r : FailReason) :
    s.ExecutorFrame (t.failStep l sl r).2 := by
  unfold State.failStep State.notifyFailed
  exact (h.notify _ _ _ _).moveToFail _

/-! ### DRAIN and REFILL -/

theorem State.ExecutorFrame.tankOpen (w : TankWork) : s.ExecutorFrame (t.tankOpen w) := by
  unfold State.tankOpen
  split
  · exact h.placeOrder _ _ _
  · exact h.waitFor _ _ _

theorem State.ExecutorFrame.tankOther (w : TankWork) : s.ExecutorFrame (t.tankOther w) := by
  unfold State.tankOther
  split
  · exact h.placeOrder _ _ _
  · exact h.tankOpen _

theorem State.ExecutorFrame.tankStart (w : TankWork) : s.ExecutorFrame (t.tankStart w) := by
  unfold State.tankStart
  split
  · exact h.placeOrder _ _ _
  · exact h.tankOther _

theorem State.ExecutorFrame.tankShut (w : TankWork) : s.ExecutorFrame (t.tankShut w) := by
  unfold State.tankShut
  split
  · exact h.placeOrder _ _ _
  · exact h.waitFor _ _ _

theorem State.ExecutorFrame.tankDone (l : Level) (sl : PlanSlot) (w : TankWork) :
    s.ExecutorFrame (t.tankDone l sl w).2 := by
  unfold State.tankDone
  split
  · exact h.tankOther _
  · exact h.tankOpen _
  · exact h.waitFor _ _ _
  · exact h.advance

theorem State.ExecutorFrame.tankFailed (l : Level) (sl : PlanSlot) (w : TankWork) (e : OrderEnd) :
    s.ExecutorFrame (t.tankFailed l sl w e).2 := by
  unfold State.tankFailed
  split
  · exact (h.modTop _).failStep _ _ _
  · exact h.failStep _ _ _

/-! ### Steps, eligibility, levels -/

theorem State.ExecutorFrame.orderLine (v : Half) : s.ExecutorFrame (t.orderLine v) := by
  unfold State.orderLine
  split
  · exact h.placeOrder _ _ _
  · exact h.waitFor _ _ _

theorem State.ExecutorFrame.releaseLine : s.ExecutorFrame t.releaseLine := by
  unfold State.releaseLine
  dsimp only
  split
  · exact (h.modTop _).releaseChannel _
  · exact h.modTop _

theorem State.ExecutorFrame.lockoutOn : s.ExecutorFrame t.lockoutOn := by
  unfold State.lockoutOn
  dsimp only
  split
  · exact h.modTop _
  · exact (h.modTop _).gate (State.withdrawForLockout_frame _)

theorem State.ExecutorFrame.beginSet (l : Level) (sl : PlanSlot) : s.ExecutorFrame (t.beginSet l sl).2 := by
  unfold State.beginSet
  dsimp only
  split
  · exact h.failStep _ _ _
  · split
    · exact h.failStep _ _ _
    · exact h.placeOrder _ _ _

theorem State.ExecutorFrame.beginTank (l : Level) (sl : PlanSlot) : s.ExecutorFrame (t.beginTank l sl).2 := by
  unfold State.beginTank
  split
  · split
    · exact h.failStep _ _ _
    · exact h.tankStart _
  · exact h.waitFor _ _ _

theorem State.ExecutorFrame.beginWaitTime (sl : PlanSlot) : s.ExecutorFrame (t.beginWaitTime sl).2 := by
  unfold State.beginWaitTime
  split
  · exact h.advance
  · exact h.waitFor _ _ _

theorem State.ExecutorFrame.beginSlot (l : Level) (sl : PlanSlot) : s.ExecutorFrame (t.beginSlot l sl).2 := by
  unfold State.beginSlot
  split
  · exact h.orderLine _
  · exact h.orderLine _
  · exact (h.modTop _).advance
  · exact h.releaseLine.advance
  · exact h.beginSet _ _
  · exact (h.releaseChannel _).advance
  · exact h.waitFor _ _ _
  · exact h.beginWaitTime _
  · exact h.beginTank _ _
  · exact h.beginTank _ _
  · exact (h.markRerun _ _).advance
  · split
    · exact (h.modTop _).advance
    · exact h.lockoutOn.advance
  · exact (h.notify _ _ _ _).advance
  · split
    · exact h.moveToFail _
    · exact h.advance
  · exact h.endOk _
  · exact h.endFail

theorem State.ExecutorFrame.beginStep : s.ExecutorFrame t.beginStep.2 := by
  unfold State.beginStep
  split
  · exact h
  · split
    · unfold State.notifyFailed
      exact ((h.notify _ _ _ _).waitFor _ _ _).endFail
    · exact h.beginSlot _ _

theorem State.ExecutorFrame.startPlan (c : Nat) (again : Task) : s.ExecutorFrame (t.startPlan c again).2 := by
  unfold State.startPlan
  split
  · unfold State.failNoPlan
    refine (h.setLatch _ _ ?_ ?_).notify _ _ _ _ <;> rfl
  · unfold State.pushLevel
    refine ((h.setLevels _).setLatch _ _ ?_ ?_).notify _ _ _ _ <;> rfl

theorem State.ExecutorFrame.suspend (l : Level) (c : Nat) : s.ExecutorFrame (t.suspend l c) := by
  unfold State.suspend
  dsimp only
  have g := h.modTop fun l => { l with wait := .none, tankPhase := 0, deadline := none }
  exact ((g.gate (((State.GateFrame.refl _).removeRoom (isPlanRoom t.topDepth)).removeQueued
    (isPlanFrame t.topDepth))).orphanTrans _).notify _ _ _ _

theorem State.ExecutorFrame.preempt (l : Level) (c : Nat) : s.ExecutorFrame (t.preempt l c).2 := by
  unfold State.preempt
  split
  · exact h.startPlan _ _
  · exact (h.suspend _ _).startPlan _ _

theorem State.ExecutorFrame.evaluate : s.ExecutorFrame t.evaluate.2 := by
  unfold State.evaluate
  split
  · exact h
  · split
    · exact h
    · split
      · exact h.startPlan _ _
      · split
        · exact h.preempt _ _
        · exact h

theorem State.ExecutorFrame.resume (l : Level) : s.ExecutorFrame (t.resume l).2 := h.notify _ _ _ _

theorem State.ExecutorFrame.afterEnd : s.ExecutorFrame t.afterEnd.2 := by
  unfold State.afterEnd
  split
  · exact h
  · exact h.startPlan _ _
  · exact h.resume _
  · split
    · exact h.startPlan _ _
    · exact h.resume _

theorem microStep_frame (k : Task) : s.ExecutorFrame (microStep k t).2 := by
  cases k
  · exact h.evaluate
  · exact h.afterEnd
  · exact h.beginStep

theorem runTasks_frame (n : Nat) (k : Option Task) : s.ExecutorFrame (runTasks n k t) := by
  induction n generalizing k t with
  | zero => exact h
  | succ n ih =>
    cases k with
    | none => exact h
    | some k => exact ih (microStep_frame h k) _

theorem State.ExecutorFrame.runEvaluate : s.ExecutorFrame t.runEvaluate := runTasks_frame h _ _

end

/-- A task is carried out from a framed outcome. -/
theorem runTask_frame {s : State} {r : Option Task × State} (h : s.ExecutorFrame r.2) :
    s.ExecutorFrame (State.runTask r) := runTasks_frame h _ _

/-! ### Events that reach a waiting step -/

section
variable {s t : State} (h : s.ExecutorFrame t)
include h

theorem State.ExecutorFrame.orderEnded (l : Level) (sl : PlanSlot) (e : OrderEnd) :
    s.ExecutorFrame (t.orderEnded l sl e).2 := by
  unfold State.orderEnded
  split
  · split
    · exact h.advance
    · exact h.orderLine _
  · split
    · exact h.advance
    · exact h.orderLine _
  · split
    · split
      · exact h.tankDone _ _ _
      · exact h.tankFailed _ _ _ _
    · exact h
  · split
    · split
      · exact h.tankDone _ _ _
      · exact h.tankFailed _ _ _ _
    · exact h
  · split
    · exact h.advance
    · exact h.failStep _ _ _

theorem State.ExecutorFrame.planOrderEnded (d st : Nat) (e : OrderEnd) : s.ExecutorFrame (t.planOrderEnded d st e) := by
  unfold State.planOrderEnded
  split
  · split
    · split
      · exact runTask_frame (h.orderEnded _ _ _)
      · exact h
    · exact h
  · exact h

theorem State.ExecutorFrame.executorReading (i : Nat) (v : Half) (ok : Bool) :
    s.ExecutorFrame (t.executorReading i v ok) := by
  unfold State.executorReading
  split
  · split
    · split
      · split
        · apply runTask_frame
          unfold State.waitSatisfied
          split
          · split
            · exact h.tankShut _
            · exact h
          · split
            · exact h.tankShut _
            · exact h
          · exact h.advance
        · exact h
      · exact h
    · exact h
  · exact h

theorem State.ExecutorFrame.markWaits : s.ExecutorFrame t.markWaits := h.setLevels _

theorem State.ExecutorFrame.deadlineReached : s.ExecutorFrame t.deadlineReached := by
  unfold State.deadlineReached
  split
  · split
    · split
      · split
        · exact runTask_frame h.advance
        · exact runTask_frame (h.failStep _ _ _)
      · exact h
    · exact h
  · exact h

theorem State.ExecutorFrame.releaseRetained : s.ExecutorFrame t.releaseRetained :=
  h.foldl _ _ fun u i g => g.gate ((State.GateFrame.refl u).toController i)

end

end Sys2Proof.Machine
end

