-- ==== Sys2Proof/Laws/Levels.lean ====
section
/-! SUPPORT. How many levels the executor's operations leave: the same number but for a start and an end, so never more
than three (R88). -/

namespace Sys2Proof.Machine

theorem State.GateFrame.levels_length {s t : State} (h : s.GateFrame t) : t.levels.length = s.levels.length := by
  have := congrArg List.length h.levels
  simpa using this

section
variable {n : Nat} {t : State} (h : t.levels.length = n)
include h

theorem gate_levels {u : State} (g : t.GateFrame u) : u.levels.length = n := g.levels_length.trans h

theorem modTop_levels (f : Level → Level) : (t.modTop f).levels.length = n := by simp [State.modTop, h]

theorem waitFor_levels (k : WaitKind) (p : Nat) (d : Option Clock) : (t.waitFor k p d).levels.length = n :=
  modTop_levels h _

theorem notify_levels (k : NoticeKind) (a b c : Half) : (t.notify k a b c).levels.length = n := h

theorem orphanTrans_levels (d : Nat) : (t.orphanTrans d).levels.length = n := by
  unfold State.orphanTrans
  split
  · split
    · split <;> exact h
    · exact h
  · exact h

theorem placeOrder_levels (i : Nat) (v : Half) (p : Nat) : (t.placeOrder i v p).levels.length = n := by
  unfold State.placeOrder
  split
  · exact h
  · have g := modTop_levels (gate_levels h ((State.GateFrame.refl t).takeChannel i t.topDepth))
      (fun l => { l with touched := touch i v l.touched })
    dsimp only
    split
    · rename_i hr
      exact waitFor_levels (gate_levels g ((State.GateFrame.refl _).appendOrder _ _ _ hr (by simp) (by simp))) _ _ _
    · exact waitFor_levels (gate_levels g (State.setRoom_frame _ _)) _ _ _

theorem passOn_levels (i d : Nat) : (t.passOn i d).levels.length = n := by
  unfold State.passOn
  split
  · exact gate_levels h ((State.GateFrame.refl t).handBackTo _ _ _)
  · exact gate_levels h ((State.GateFrame.refl t).toController _)

theorem releaseChannel_levels (i : Nat) : (t.releaseChannel i).levels.length = n := by
  unfold State.releaseChannel
  dsimp only
  split
  · exact passOn_levels (modTop_levels h _) _ _
  · exact modTop_levels h _

theorem foldl_levels (l : List Nat) (f : State → Nat → State)
    (hf : ∀ (u : State) (i : Nat), u.levels.length = n → (f u i).levels.length = n) :
    (l.foldl f t).levels.length = n := by
  induction l generalizing t with
  | nil => exact h
  | cons i l ih => exact ih (hf t i h)

theorem finishLevel_levels (l : Level) (ok : Bool) (at_ : Nat) : (t.finishLevel l ok at_).levels.length = n - 1 := by
  unfold State.finishLevel
  dsimp only
  simp [State.notify, State.notifyAt, modTop_levels h]

theorem tankOpen_levels (w : TankWork) : (t.tankOpen w).levels.length = n := by
  unfold State.tankOpen
  split
  · exact placeOrder_levels h _ _ _
  · exact waitFor_levels h _ _ _

theorem tankOther_levels (w : TankWork) : (t.tankOther w).levels.length = n := by
  unfold State.tankOther
  split
  · exact placeOrder_levels h _ _ _
  · exact tankOpen_levels h _

theorem tankStart_levels (w : TankWork) : (t.tankStart w).levels.length = n := by
  unfold State.tankStart
  split
  · exact placeOrder_levels h _ _ _
  · exact tankOther_levels h _

theorem tankShut_levels (w : TankWork) : (t.tankShut w).levels.length = n := by
  unfold State.tankShut
  split
  · exact placeOrder_levels h _ _ _
  · exact waitFor_levels h _ _ _

theorem orderLine_levels (v : Half) : (t.orderLine v).levels.length = n := by
  unfold State.orderLine
  split
  · exact placeOrder_levels h _ _ _
  · exact waitFor_levels h _ _ _

theorem releaseLine_levels : t.releaseLine.levels.length = n := by
  unfold State.releaseLine
  dsimp only
  split
  · exact releaseChannel_levels (modTop_levels h _) _
  · exact modTop_levels h _

theorem lockoutOn_levels : t.lockoutOn.levels.length = n := by
  unfold State.lockoutOn
  dsimp only
  split
  · exact modTop_levels h _
  · exact gate_levels (modTop_levels h _) (State.withdrawForLockout_frame _)

theorem suspend_levels (l : Level) (c : Nat) : (t.suspend l c).levels.length = n := by
  unfold State.suspend
  have g := modTop_levels h fun l => { l with wait := .none, tankPhase := 0, deadline := none }
  exact notify_levels (orphanTrans_levels (gate_levels g (((State.GateFrame.refl _).removeRoom
    (isPlanRoom t.topDepth)).removeQueued (isPlanFrame t.topDepth))) _) _ _ _ _

end

/-- A task's outcome keeps the bound on levels: at most three, and after a level's end at most two. -/
def LevelBound (r : Option Task × State) : Prop :=
  r.2.levels.length ≤ 3 ∧ (r.1 = some .afterEnd → r.2.levels.length ≤ 2)

section
variable {t : State} (h : t.levels.length ≤ 3)
include h

theorem LevelBound.same {k : Option Task} {u : State} (e : u.levels.length = t.levels.length)
    (hk : k ≠ some .afterEnd) : LevelBound (k, u) := ⟨by simpa [e] using h, fun a => absurd a hk⟩

theorem LevelBound.endOk (at_ : Nat) : LevelBound (t.endOk at_) := by
  unfold State.endOk
  split
  · exact .same h rfl (by simp)
  · have e := finishLevel_levels
      (foldl_levels (t := t) rfl (t.ownedBy (.level t.topDepth)) (fun s i => s.passOn i t.topDepth) fun u i g =>
        passOn_levels g i _) (l := ‹Level›) (ok := true) (at_ := at_)
    dsimp only
    refine ⟨?_, fun _ => ?_⟩ <;> rw [e] <;> omega

theorem LevelBound.endFail : LevelBound t.endFail := by
  unfold State.endFail
  split
  · exact .same h rfl (by simp)
  · have e := finishLevel_levels
      (foldl_levels (t := t) rfl (t.ownedBy (.level t.topDepth)) (fun s i => s.setOwner i .retained) fun u i g =>
        gate_levels g ((State.GateFrame.refl u).setOwner i _)) (l := ‹Level›) (ok := false) (at_ := (‹Level›).step)
    dsimp only
    refine ⟨?_, fun _ => ?_⟩ <;> rw [e] <;> omega

theorem LevelBound.advance : LevelBound t.advance := by
  unfold State.advance
  split
  · exact .same h rfl (by simp)
  · have e := waitFor_levels (t := t) rfl .none 0 none
    dsimp only
    split
    · exact .same h (modTop_levels e _) (by simp)
    · exact LevelBound.endOk (e ▸ h) _

theorem LevelBound.moveToFail (f : Option Nat) : LevelBound (t.moveToFail f) := by
  unfold State.moveToFail
  have e := waitFor_levels (t := t) rfl .none 0 none
  dsimp only
  split
  · exact .same h (modTop_levels e _) (by simp)
  · exact LevelBound.endFail (e ▸ h)

theorem LevelBound.failStep (l : Level) (sl : PlanSlot) (r : FailReason) : LevelBound (t.failStep l sl r) := by
  unfold State.failStep State.notifyFailed
  exact LevelBound.moveToFail (t := t.notify _ _ _ _) h _

theorem LevelBound.tankDone (l : Level) (sl : PlanSlot) (w : TankWork) : LevelBound (t.tankDone l sl w) := by
  unfold State.tankDone
  split
  · exact .same h (tankOther_levels rfl _) (by simp)
  · exact .same h (tankOpen_levels rfl _) (by simp)
  · exact .same h (waitFor_levels rfl _ _ _) (by simp)
  · exact LevelBound.advance h

theorem LevelBound.tankFailed (l : Level) (sl : PlanSlot) (w : TankWork) (e : OrderEnd) :
    LevelBound (t.tankFailed l sl w e) := by
  unfold State.tankFailed
  split
  · rename_i i _ _
    have g := modTop_levels (t := t) rfl fun l => { l with touched := touch i 100 l.touched }
    exact LevelBound.failStep (g ▸ h) _ _ _
  · exact LevelBound.failStep h _ _ _

theorem LevelBound.beginSlot (l : Level) (sl : PlanSlot) : LevelBound (t.beginSlot l sl) := by
  have adv : ∀ {u : State}, u.levels.length = t.levels.length → LevelBound u.advance := fun e =>
    LevelBound.advance (e ▸ h)
  unfold State.beginSlot
  split
  · exact .same h (orderLine_levels rfl _) (by simp)
  · exact .same h (orderLine_levels rfl _) (by simp)
  · exact adv (modTop_levels rfl _)
  · exact adv (releaseLine_levels rfl)
  · unfold State.beginSet
    dsimp only
    split
    · exact LevelBound.failStep h _ _ _
    · split
      · exact LevelBound.failStep h _ _ _
      · exact .same h (placeOrder_levels rfl _ _ _) (by simp)
  · exact adv (releaseChannel_levels rfl _)
  · exact .same h (waitFor_levels rfl _ _ _) (by simp)
  · unfold State.beginWaitTime
    split
    · exact adv rfl
    · exact .same h (waitFor_levels rfl _ _ _) (by simp)
  iterate 2
    unfold State.beginTank
    split
    · split
      · exact LevelBound.failStep h _ _ _
      · exact .same h (tankStart_levels rfl _) (by simp)
    · exact .same h (waitFor_levels rfl _ _ _) (by simp)
  · exact adv rfl
  · split
    · exact adv (modTop_levels rfl _)
    · exact adv (lockoutOn_levels rfl)
  · exact adv rfl
  · split
    · exact LevelBound.moveToFail h _
    · exact adv rfl
  · exact LevelBound.endOk h _
  · exact LevelBound.endFail h

theorem LevelBound.beginStep : LevelBound t.beginStep := by
  unfold State.beginStep
  split
  · exact .same h rfl (by simp)
  · split
    · unfold State.notifyFailed
      exact LevelBound.endFail ((waitFor_levels (notify_levels rfl _ _ _ _) _ _ _ : _ = t.levels.length) ▸ h)
    · exact LevelBound.beginSlot h _ _

end

theorem LevelBound.startPlan {t : State} (h : t.levels.length ≤ 2) (c : Nat) (again : Task) :
    LevelBound (t.startPlan c again) := by
  unfold State.startPlan
  split
  · exact ⟨by show t.levels.length ≤ 3; omega, fun _ => h⟩
  · refine ⟨?_, fun a => by simp at a⟩
    simp [State.pushLevel, State.notify, State.notifyAt]; omega

theorem microStep_bound {k : Task} {t : State} (h : LevelBound (some k, t)) : LevelBound (microStep k t) := by
  obtain ⟨h3, h2⟩ := h
  cases k with
  | evaluate =>
    show LevelBound t.evaluate
    unfold State.evaluate
    split
    · exact ⟨h3, fun a => by simp at a⟩
    · split
      · exact ⟨h3, fun a => by simp at a⟩
      · split
        · rename_i hr
          have : t.levels = [] := by simpa [State.running] using hr
          exact LevelBound.startPlan (by simp [this]) _ _
        · split
          · rename_i hc
            have hl : t.levels.length ≤ 2 := by have : t.levels.length < 3 := hc.2; omega
            unfold State.preempt
            split
            · exact LevelBound.startPlan hl _ _
            · exact LevelBound.startPlan ((suspend_levels rfl _ _ : _ = t.levels.length) ▸ hl) _ _
          · exact ⟨h3, fun a => by simp at a⟩
  | afterEnd =>
    have h2 := h2 rfl
    show LevelBound t.afterEnd
    unfold State.afterEnd
    split
    · exact ⟨h3, fun a => by simp at a⟩
    · exact LevelBound.startPlan h2 _ _
    · exact ⟨h3, fun a => by simp [State.resume] at a⟩
    · split
      · exact LevelBound.startPlan h2 _ _
      · exact ⟨h3, fun a => by simp [State.resume] at a⟩
  | startStep => exact LevelBound.beginStep h3

theorem runTasks_bound (n : Nat) (k : Option Task) (t : State) (h : LevelBound (k, t)) :
    (runTasks n k t).levels.length ≤ 3 := by
  induction n generalizing k t with
  | zero => exact h.1
  | succ n ih =>
    cases k with
    | none => exact h.1
    | some k => exact ih _ _ (microStep_bound h)

theorem runTask_bound {r : Option Task × State} (h : LevelBound r) : (State.runTask r).levels.length ≤ 3 :=
  runTasks_bound _ _ _ h

theorem runEvaluate_bound {t : State} (h : t.levels.length ≤ 3) : t.runEvaluate.levels.length ≤ 3 :=
  runTask_bound (.same h rfl (by simp))

theorem planOrderEnded_bound {t : State} (h : t.levels.length ≤ 3) (d st : Nat) (e : OrderEnd) :
    (t.planOrderEnded d st e).levels.length ≤ 3 := by
  unfold State.planOrderEnded
  split
  · split
    · split
      · apply runTask_bound
        unfold State.orderEnded
        split
        · split
          · exact LevelBound.advance h
          · exact .same h (orderLine_levels rfl _) (by simp)
        · split
          · exact LevelBound.advance h
          · exact .same h (orderLine_levels rfl _) (by simp)
        iterate 2
          split
          · split
            · exact LevelBound.tankDone h _ _ _
            · exact LevelBound.tankFailed h _ _ _ _
          · exact .same h rfl (by simp)
        · split
          · exact LevelBound.advance h
          · exact LevelBound.failStep h _ _ _
      · exact h
    · exact h
  · exact h

theorem executorReading_bound {t : State} (h : t.levels.length ≤ 3) (i : Nat) (v : Half) (ok : Bool) :
    (t.executorReading i v ok).levels.length ≤ 3 := by
  unfold State.executorReading
  split
  · split
    · split
      · split
        · apply runTask_bound
          unfold State.waitSatisfied
          split
          iterate 2
            split
            · exact .same h (tankShut_levels rfl _) (by simp)
            · exact .same h rfl (by simp)
          · exact LevelBound.advance h
        · exact h
      · exact h
    · exact h
  · exact h

theorem deadlineReached_bound {t : State} (h : t.levels.length ≤ 3) : t.deadlineReached.levels.length ≤ 3 := by
  unfold State.deadlineReached
  split
  · split
    · split
      · split
        · exact runTask_bound (LevelBound.advance h)
        · exact runTask_bound (LevelBound.failStep h _ _ _)
      · exact h
    · exact h
  · exact h

/-- Outside ARMED an evaluation does nothing (R90). -/
theorem runEvaluate_idle {t : State} (h : t.mgmt.engine ≠ .armed) : t.runEvaluate = t := by
  have e : t.evaluate = (none, t) := by simp [State.evaluate, State.engine, h]
  show runTasks 256 (some .evaluate) t = t
  rw [show (256 : Nat) = 254 + 1 + 1 from rfl]
  simp [runTasks, microStep, e]

end Sys2Proof.Machine
end

