-- ==== Sys2Proof/Laws/Events.lean ====
section
/-! SUPPORT. What a raise, a reading, an acknowledgement and an age check can do, said once: `EventFrame`. -/

namespace Sys2Proof.Machine

/-- What an event on the part's own blocks leaves as it was, and what it keeps: it never touches tables, clock, tracked
phase, the frame being sent or the responder but for the way from WATCH to ARMED, and it keeps the invariants. -/
structure State.EventFrame (s t : State) : Prop where
  tables     : t.tables = s.tables
  pending    : t.pending = s.pending
  clock      : t.time.clock = s.time.clock
  phase      : t.ports.phase = s.ports.phase
  sending    : t.ports.sending = s.ports.sending
  mgmt       : { t.mgmt with engine := .config } = { s.mgmt with engine := .config }
  watch      : t.time.watchDeadline = s.time.watchDeadline ∨ t.time.watchDeadline = none
  engine     : t.mgmt.engine = s.mgmt.engine ∨
                 (s.mgmt.engine = .watch ∧ t.mgmt.engine = .armed ∧ t.time.watchDeadline = none)
  capacities : s.Capacities → t.Capacities
  form       : s.EngineForm → t.EngineForm
  queueForm  : s.QueueForm → t.QueueForm
  trans      : t.ports.trans.map (fun x => { x with origin := .phase }) =
                 s.ports.trans.map fun x => { x with origin := .phase }
  origin     : ∀ x, s.ports.trans = some x → (∀ d st i, x.origin ≠ .plan d st i) → t.ports.trans = s.ports.trans
  orphan     : ∀ x d st i, s.ports.trans = some x → x.origin = .plan d st i →
                 t.ports.trans = s.ports.trans ∨ t.ports.trans = some { x with origin := .planOrphan i }
  answered   : (t.ports.cport = s.ports.cport ∧ t.arbiter.waiting = s.arbiter.waiting) ∨
                 (s.arbiter.waiting.isSome = true ∧ t.arbiter.waiting = none ∧ ∃ f, t.ports.cport = .replying f)

theorem State.EventFrame.refl (s : State) : s.EventFrame s where
  tables := rfl
  pending := rfl
  clock := rfl
  phase := rfl
  sending := rfl
  mgmt := rfl
  watch := .inl rfl
  engine := .inl rfl
  capacities := id
  form := id
  queueForm := id
  trans := rfl
  origin _ _ _ := rfl
  orphan _ _ _ _ _ _ := .inl rfl
  answered := .inl ⟨rfl, rfl⟩

theorem State.EventFrame.trans' {s t u : State} (h : s.EventFrame t) (g : t.EventFrame u) : s.EventFrame u where
  tables := g.tables.trans h.tables
  pending := g.pending.trans h.pending
  clock := g.clock.trans h.clock
  phase := g.phase.trans h.phase
  sending := g.sending.trans h.sending
  mgmt := g.mgmt.trans h.mgmt
  watch := by
    rcases g.watch with a | a
    · rcases h.watch with b | b
      · exact .inl (a.trans b)
      · exact .inr (a.trans b)
    · exact .inr a
  engine := by
    rcases h.engine with a | ⟨a, b, c⟩ <;> rcases g.engine with a' | ⟨a', b', c'⟩
    · exact .inl (a'.trans a)
    · exact .inr ⟨a ▸ a', b', c'⟩
    · refine .inr ⟨a, a'.trans b, ?_⟩
      rcases g.watch with d | d
      · exact d.trans c
      · exact d
    · rw [b] at a'; cases a'
  capacities x := g.capacities (h.capacities x)
  form x := g.form (h.form x)
  queueForm x := g.queueForm (h.queueForm x)
  trans := g.trans.trans h.trans
  origin x e o := by
    have a := h.origin x e o
    exact (g.origin x (a.trans e) o).trans a
  orphan x d st i e o := by
    rcases h.orphan x d st i e o with a | a
    · rcases g.orphan x d st i (a.trans e) o with b | b
      · exact .inl (b.trans a)
      · exact .inr b
    · exact .inr ((g.origin _ a (by simp)).trans a)
  answered := by
    rcases h.answered with ⟨a, b⟩ | ⟨a, b, f, c⟩ <;> rcases g.answered with ⟨a', b'⟩ | ⟨a', b', f', c'⟩
    · exact .inl ⟨a'.trans a, b'.trans b⟩
    · exact .inr ⟨b ▸ a', b', f', c'⟩
    · exact .inr ⟨a, b'.trans b, f, a'.trans c⟩
    · simp [b] at a'

/-! ### From the executor's frame -/

theorem racks_of_map {a b : List Rack}
    (h : b.map (fun r => { r with rerun := false, overlap := none }) =
      a.map fun r => { r with rerun := false, overlap := none }) :
    b.length = a.length ∧ b.map Rack.credits = a.map Rack.credits := by
  constructor
  · simpa using congrArg List.length h
  · have := congrArg (List.map Rack.credits) h
    simpa [List.map_map, Function.comp_def] using this

theorem credits_bound {a b : List Rack} (h : b.map Rack.credits = a.map Rack.credits)
    (ha : ∀ r ∈ a, ∀ c ∈ r.credits, c.heat ≤ 65535 ∧ c.action ≤ 65535) :
    ∀ r ∈ b, ∀ c ∈ r.credits, c.heat ≤ 65535 ∧ c.action ≤ 65535 := by
  intro r hr c hc
  have : r.credits ∈ b.map Rack.credits := List.mem_map.2 ⟨r, hr, rfl⟩
  rw [h] at this
  obtain ⟨q, hq, e⟩ := List.mem_map.1 this
  exact ha q hq c (e ▸ hc)

theorem lists_bound {a b : List Rack} (h : b.map Rack.credits = a.map Rack.credits)
    (ha : ∀ r ∈ a, r.credits.length ≤ 8) : ∀ r ∈ b, r.credits.length ≤ 8 := by
  intro r hr
  have : r.credits ∈ b.map Rack.credits := List.mem_map.2 ⟨r, hr, rfl⟩
  rw [h] at this
  obtain ⟨q, hq, e⟩ := List.mem_map.1 this
  exact e ▸ ha q hq

theorem State.ExecutorFrame.capacities {s t : State} (h : s.ExecutorFrame t) (hl : t.levels.length ≤ 3)
    (c : s.Capacities) : t.Capacities where
  queue := h.queueCap c.queue
  notices := h.noticeCap c.notices
  racks := (racks_of_map h.racks).1 ▸ c.racks
  levels := hl
  misses := by rw [h.misses]; exact c.misses
  latches d := (h.latches d).1 ▸ c.latches d
  repeats := by rw [h.contain]; exact c.repeats
  credits := credits_bound (racks_of_map h.racks).2 c.credits
  lists := lists_bound (racks_of_map h.racks).2 c.lists
  sigs := by unfold State.sigAt; rw [h.tables]; exact c.sigs
  runs := by unfold State.runAt; rw [h.monitor]; exact c.runs

theorem State.ExecutorFrame.silenceRuns {s t : State} (h : s.ExecutorFrame t) : t.silenceRuns = s.silenceRuns := by
  have e : t.silenceLimit = s.silenceLimit := by unfold State.silenceLimit; rw [h.tables]
  unfold State.silenceRuns State.engine
  rw [e, h.mgmt, h.phase]

theorem State.ExecutorFrame.form {s t : State} (h : s.ExecutorFrame t)
    (hl : s.mgmt.engine ≠ .armed → s.levels = [] → t.levels = []) (f : s.EngineForm) : t.EngineForm where
  check := by rw [h.mgmt]; exact f.check
  watch := by rw [h.mgmt, h.time]; exact f.watch
  silence := by rw [h.time, h.silenceRuns]; exact f.silence
  credit := by rw [h.mgmt, h.time]; exact f.credit
  racks e := by
    rw [h.mgmt] at e
    have := (racks_of_map h.racks).1
    rw [f.racks e] at this
    exact List.length_eq_zero_iff.1 this
  levels e := by
    rw [h.mgmt] at e
    exact hl e (f.levels e)

theorem State.ExecutorFrame.event {s t : State} (h : s.ExecutorFrame t) (hl : s.levels.length ≤ 3 → t.levels.length ≤ 3)
    (he : s.mgmt.engine ≠ .armed → s.levels = [] → t.levels = []) : s.EventFrame t where
  tables := h.tables
  pending := h.pending
  clock := by rw [h.time]
  phase := h.phase
  sending := h.sending
  mgmt := by rw [h.mgmt]
  watch := .inl (by rw [h.time])
  engine := .inl (by rw [h.mgmt])
  capacities c := h.capacities (hl c.levels) c
  form := h.form he
  queueForm := h.queueForm
  trans := h.trans
  origin := h.origin
  orphan := h.orphan
  answered := h.answered

theorem State.GateFrame.event {s t : State} (h : s.GateFrame t) : s.EventFrame t :=
  h.executor.event (fun x => h.levels_length ▸ x) fun _ e => by
    have := h.levels_length
    rw [e] at this
    exact List.length_eq_zero_iff.1 this

section
variable {s t : State} (h : s.EventFrame t)
include h

theorem State.EventFrame.gate {u : State} (g : t.GateFrame u) : s.EventFrame u := h.trans' g.event

/-- An executor operation that keeps the number of levels. -/
theorem State.EventFrame.executor {u : State} (g : t.ExecutorFrame u) (e : u.levels.length = t.levels.length) :
    s.EventFrame u :=
  h.trans' (g.event (fun x => e ▸ x) fun _ y => by rw [y] at e; exact List.length_eq_zero_iff.1 e)

theorem State.EventFrame.notify (k : NoticeKind) (a b c : Half) : s.EventFrame (t.notify k a b c) :=
  h.executor ((State.ExecutorFrame.refl t).notify k a b c) rfl

theorem State.EventFrame.notifyAt (m : Clock) (k : NoticeKind) (a b c : Half) : s.EventFrame (t.notifyAt m k a b c) := by
  refine h.trans' ?_
  have := pushNotice_length t.notices { kind := k, time := m, a := a, b := b, c := c, overflowed := false }
  constructor
  case capacities =>
    intro c
    refine ⟨c.queue, ?_, c.racks, c.levels, c.misses, c.latches, c.repeats, c.credits, c.lists, c.sigs, c.runs⟩
    show (pushNotice t.notices _).length ≤ 16
    have := c.notices
    omega
  case form => exact fun f => ⟨f.check, f.watch, f.silence, f.credit, f.racks, f.levels⟩
  case answered => exact .inl ⟨rfl, rfl⟩
  all_goals first | rfl | exact .inl rfl | exact fun h => h | simp [State.notifyAt]

theorem State.EventFrame.runEvaluate : s.EventFrame t.runEvaluate := by
  refine h.trans' ((State.ExecutorFrame.refl t).runEvaluate.event runEvaluate_bound fun e l => ?_)
  rw [runEvaluate_idle e]; exact l

/-- With no level the executor's events do nothing. -/
theorem State.EventFrame.planOrderEnded (d st : Nat) (e : OrderEnd) : s.EventFrame (t.planOrderEnded d st e) := by
  refine h.trans' (((State.ExecutorFrame.refl t).planOrderEnded d st e).event (fun x => planOrderEnded_bound x _ _ _)
    fun _ l => ?_)
  simp [State.planOrderEnded, State.running, l]

theorem State.EventFrame.executorReading (i : Nat) (v : Half) (ok : Bool) : s.EventFrame (t.executorReading i v ok) := by
  refine h.trans' (((State.ExecutorFrame.refl t).executorReading i v ok).event (fun x => executorReading_bound x _ _ _)
    fun _ l => ?_)
  simp [State.executorReading, State.running, l]

theorem State.EventFrame.deadlineReached : s.EventFrame t.deadlineReached := by
  refine h.trans' ((State.ExecutorFrame.refl t).deadlineReached.event deadlineReached_bound fun _ l => ?_)
  simp [State.deadlineReached, State.running, l]

theorem State.EventFrame.markWaits : s.EventFrame t.markWaits :=
  h.executor (State.ExecutorFrame.refl t).markWaits (by simp [State.markWaits])

/-! ### Latches and containment (R70 to R81) -/

theorem State.EventFrame.setLatch (c : Nat) (l : Latch) (hc : t.Capacities → l.count ≤ 255) :
    s.EventFrame (t.setLatch c l) := by
  refine h.trans' ?_
  constructor
  case capacities =>
    intro a
    refine ⟨a.queue, a.notices, a.racks, a.levels, a.misses, ?_, a.repeats, a.credits, a.lists, a.sigs, a.runs⟩
    intro d
    have ad := a.latches d
    simp only [State.latchAt, State.setLatch_latches, Vector.getElem?_setIfInBounds] at ad ⊢
    split
    · split
      · exact hc a
      · simp [Latch.reset]
    · exact ad
  case form => exact fun f => ⟨f.check, f.watch, f.silence, f.credit, f.racks, f.levels⟩
  case answered => exact .inl ⟨rfl, rfl⟩
  all_goals first | rfl | exact .inl rfl | exact fun h => h | simp

theorem State.EventFrame.setContain (c : Containment) (hc : t.Capacities → c.repeats ≤ 255) :
    s.EventFrame (t.setContain c) := by
  refine h.trans' ?_
  constructor
  case capacities =>
    exact fun a => ⟨a.queue, a.notices, a.racks, a.levels, a.misses, a.latches, hc a, a.credits, a.lists, a.sigs, a.runs⟩
  case form => exact fun f => ⟨f.check, f.watch, f.silence, f.credit, f.racks, f.levels⟩
  case answered => exact .inl ⟨rfl, rfl⟩
  all_goals first | rfl | exact .inl rfl | exact fun h => h | simp

/-- The order gate's cells and its lock. -/
theorem State.EventFrame.setGate (g : OrderGate) : s.EventFrame { t with gate := g } := by
  refine h.trans' ?_
  constructor
  case capacities =>
    exact fun a => ⟨a.queue, a.notices, a.racks, a.levels, a.misses, a.latches, a.repeats, a.credits, a.lists, a.sigs, a.runs⟩
  case form => exact fun f => ⟨f.check, f.watch, f.silence, f.credit, f.racks, f.levels⟩
  case answered => exact .inl ⟨rfl, rfl⟩
  all_goals first | rfl | exact .inl rfl | exact fun h => h | simp

theorem State.EventFrame.modGate (i : Nat) (f : GateCell → GateCell) : s.EventFrame (t.modGate i f) := h.setGate _

theorem State.EventFrame.setLock (d : Option Clock) : s.EventFrame (t.setLock d) := h.setGate _

theorem State.EventFrame.foldl (l : List Nat) (f : State → Nat → State)
    (hf : ∀ (u : State) (i : Nat), s.EventFrame u → s.EventFrame (f u i)) : s.EventFrame (l.foldl f t) := by
  induction l generalizing t with
  | nil => exact h
  | cons i l ih => exact ih (hf t i h)

theorem State.EventFrame.autoMark (c z : Nat) (k : Clock) : s.EventFrame (t.autoMark c z k) :=
  h.executor ((State.ExecutorFrame.refl t).autoMark c z k) rfl

theorem State.EventFrame.becomePending (c : Nat) (cause : Cause) (n : Nat) (hn : t.Capacities → n ≤ 255) :
    s.EventFrame (t.becomePending c cause n) := by
  unfold State.becomePending
  have h1 := h.setLatch c { state := .pending, count := n, firstCause := some cause, ending := none } hn
  dsimp only
  split
  · have h2 := h1.notifyAt cause.time .faultLatched (word c) (optHalf cause.zone) (word cause.source.code)
    split
    · exact (h2.autoMark _ _ _).runEvaluate
    · exact h2.runEvaluate
  · split
    · exact h1.autoMark _ _ _
    · exact h1

theorem State.EventFrame.latchRaise (c : Nat) (cause : Cause) : s.EventFrame (t.latchRaise c cause) := by
  unfold State.latchRaise
  dsimp only
  split
  · exact h.becomePending _ _ _ fun _ => by omega
  · exact h.becomePending _ _ _ fun _ => by unfold countUp; simp
  all_goals exact h.setLatch _ _ fun _ => by unfold countUp; simp

theorem State.EventFrame.oweForceOffs : s.EventFrame t.oweForceOffs := by
  unfold State.oweForceOffs
  exact h.foldl _ _ fun u i g => g.modGate _ _

theorem State.EventFrame.takeRaise (c : Nat) (cause : Cause) : s.EventFrame (t.takeRaise c cause) := by
  unfold State.takeRaise
  split
  · split
    · exact h.setContain _ fun _ => by unfold countUp; simp
    · unfold State.engageContainment
      exact ((((h.setContain _ fun _ => by simp).oweForceOffs).setLock _).notify _ _ _ _).latchRaise _ _
  · exact h.latchRaise _ _

end

/-! ### The ways into ARMED -/

/-- After `syncSilence` the timer runs exactly under its three conditions (R72). -/
theorem syncSilence_iff (s : State) : s.syncSilence.time.silence.isSome = s.syncSilence.silenceRuns := by
  unfold State.syncSilence
  split
  · rename_i h
    split
    · rename_i g; rw [g, h]
    · show true = s.silenceRuns
      rw [h]
  · rename_i h
    have : s.silenceRuns = false := by simpa using h
    show false = s.silenceRuns
    rw [this]

/-- `syncSilence` moves the silence timer's deadline and nothing else. -/
theorem syncSilence_eq (s : State) : ∃ d, s.syncSilence = s.setSilence d := by
  unfold State.syncSilence
  split
  · split
    · exact ⟨s.time.silence, rfl⟩
    · exact ⟨_, rfl⟩
  · exact ⟨_, rfl⟩

theorem State.EventFrame.endWatch {s t : State} (h : s.EventFrame t) (hw : s.mgmt.engine = .watch)
    (ht : t.mgmt.engine = .watch) (k : WakeCause) (c : Option Nat) : s.EventFrame (t.endWatch k c) := by
  unfold State.endWatch State.enterArmed
  apply State.EventFrame.runEvaluate
  have hn : s.EventFrame (t.notify .wake (word k.code) (optHalf c) noneHalf) := h.notify _ _ _ _
  obtain ⟨d, e⟩ := syncSilence_eq ((((t.setWatch none).setEngine .armed).notify .wake (word k.code) (optHalf c) noneHalf))
  have f := syncSilence_iff ((((t.setWatch none).setEngine .armed).notify .wake (word k.code) (optHalf c) noneHalf))
  rw [e] at f ⊢
  constructor
  case capacities =>
    intro a
    have b := hn.capacities a
    exact ⟨b.queue, b.notices, b.racks, b.levels, b.misses, b.latches, b.repeats, b.credits, b.lists, b.sigs, b.runs⟩
  case form =>
    intro a
    have b := h.form a
    exact ⟨fun _ => b.check (by simp [ht]), fun _ => rfl, f, fun _ => rfl, fun x => absurd rfl x, fun x => absurd rfl x⟩
  case queueForm => exact fun a => h.queueForm a
  case engine => exact .inr ⟨hw, rfl, rfl⟩
  case watch => exact .inr rfl
  case tables => exact h.tables
  case pending => exact h.pending
  case clock => exact h.clock
  case phase => exact h.phase
  case sending => exact h.sending
  case mgmt => exact h.mgmt
  case trans => exact h.trans
  case origin => exact h.origin
  case orphan => exact h.orphan
  case answered => exact h.answered

theorem oweForceOffs_mgmt (s : State) : s.oweForceOffs.mgmt = s.mgmt := by
  unfold State.oweForceOffs
  generalize List.filter _ _ = l
  induction l generalizing s with
  | nil => rfl
  | cons i l ih => exact ih _

theorem engageContainment_mgmt (c : Nat) (z : Option Nat) (s : State) : (s.engageContainment c z).mgmt = s.mgmt := by
  unfold State.engageContainment
  exact oweForceOffs_mgmt _

theorem State.EventFrame.raise {s t : State} (h : s.EventFrame t) (c : Nat) (cause : Cause) :
    s.EventFrame (t.raise c cause) := by
  refine h.trans' ?_
  unfold State.raise
  split
  · exact (State.EventFrame.refl t).takeRaise _ _
  · rename_i hw
    split
    · have g := (State.EventFrame.refl t).takeRaise c cause
      refine g.endWatch hw ?_ _ _
      -- outside ARMED a raise that is taken leaves the engine state
      have e : ∀ {u v : State}, u.mgmt.engine = .watch → u.EventFrame v → v.mgmt.engine ≠ .armed → v.mgmt.engine = .watch :=
        fun hu k x => (k.engine.elim (fun y => y.trans hu) fun y => absurd y.2.1 x)
      refine e hw g ?_
      have hs : t.mgmt.engine ≠ .armed := by rw [show t.mgmt.engine = .watch from hw]; simp
      have bp : ∀ (u : State) (n : Nat), u.mgmt.engine ≠ .armed → (u.becomePending c cause n).mgmt.engine = u.mgmt.engine := by
        intro u n hu
        unfold State.becomePending
        dsimp only
        split
        · rw [runEvaluate_idle] <;> (cases cause.zone <;> first | rfl | exact hu)
        · cases cause.zone <;> rfl
      have lr : ∀ u : State, u.mgmt.engine ≠ .armed → (u.latchRaise c cause).mgmt.engine = u.mgmt.engine := by
        intro u hu
        unfold State.latchRaise
        dsimp only
        split
        · exact bp _ _ hu
        · exact bp _ _ hu
        all_goals rfl
      unfold State.takeRaise
      split
      · split
        · exact hs
        · have q := engageContainment_mgmt c cause.zone t
          rw [lr _ (by rw [q]; exact hs), q]
          exact hs
      · rw [lr _ hs]; exact hs
    · exact .refl t
  · exact .refl t
  · exact .refl t

end Sys2Proof.Machine
end

