-- ==== Sys2Proof/Laws/PerInstr.lean ====
section
/-! SUPPORT. The family `FrameFits`, one lemma per command: a well-formed command that is a controller frame is a frame
that the wire can carry (R110). -/

namespace Sys2Proof.Laws

/-- The controller frame that a well-formed command is, if it is one, is not malformed (R110). -/
def FrameFits.Statement (i : Instr) : Prop :=
  i.wellFormed = true → ∀ f, i.controllerFrame = some f → f.malformed = false

/-- A request whose arguments fit makes a frame that is not malformed. -/
theorem FrameFits.of_args {args : List Byte} (h : argsFit args = true) (r : Machine.Request) (seq : Byte) :
    (Machine.requestFrame r seq args).malformed = false := by
  simp only [argsFit, decide_eq_true_eq] at h
  simp [Frame.malformed, Machine.requestFrame, Machine.ctlFrame]
  omega

/-- A payload that fits makes a frame that is not malformed, for a broadcast and for the part. -/
theorem FrameFits.of_payload {payload : List Byte} (h : payloadFits payload = true) {dst : Byte}
    (hd : dst &&& 0xC0 = 0) (kind : BitVec 4) (seq : Byte) :
    (Machine.ctlFrame dst kind seq payload).malformed = false := by
  simp only [payloadFits, decide_eq_true_eq] at h
  simp only [Frame.malformed, Machine.ctlFrame, hd]
  simpa using h

/-- A node's address has its two top bits clear. -/
theorem FrameFits.of_node {node : Byte} (h : Machine.isNode node = true) : node &&& 0xC0 = 0 := by
  revert node
  decide

theorem FrameFits.resetN : FrameFits.Statement .resetN := fun _ _ e => nomatch e

theorem FrameFits.malformedFrame (port : Port) (bytes : List Byte)
    : FrameFits.Statement (.malformedFrame port bytes) := fun _ _ e => nomatch e

theorem FrameFits.cFrameDiscard (f : Frame) : FrameFits.Statement (.cFrameDiscard f) := by
  intro h g e
  cases e
  simpa [Instr.wellFormed] using h

theorem FrameFits.controllerOrder (node : Byte) (chan : Byte) (value : Half) (seq : Byte)
    : FrameFits.Statement (.controllerOrder node chan value seq) := by
  intro h g e
  cases e
  exact FrameFits.of_payload (payload := Machine.orderPayload chan value) rfl (FrameFits.of_node h) _ _

theorem FrameFits.controllerPoll (node : Byte) (chan : Byte) (seq : Byte)
    : FrameFits.Statement (.controllerPoll node chan seq) := by
  intro h g e
  cases e
  exact FrameFits.of_payload (payload := [chan]) rfl (FrameFits.of_node h) _ _

theorem FrameFits.transparentFrame (f : Frame) : FrameFits.Statement (.transparentFrame f) := by
  intro h g e
  cases e
  simp only [Instr.wellFormed, transparentOk, Bool.and_eq_true] at h
  simpa using h.1.1.1

theorem FrameFits.phase (seq : Byte) (payload : List Byte) : FrameFits.Statement (.phase seq payload) := by
  intro h g e
  cases e
  exact FrameFits.of_payload h rfl _ _

theorem FrameFits.prefixFrame (seq : Byte) (payload : List Byte) : FrameFits.Statement (.prefixFrame seq payload) := by
  intro h g e
  cases e
  exact FrameFits.of_payload h rfl _ _

theorem FrameFits.mgmtUnknown (kind : BitVec 4) (seq : Byte) (payload : List Byte)
    : FrameFits.Statement (.mgmtUnknown kind seq payload) := by
  intro h g e
  cases e
  simp only [Instr.wellFormed, unknownOk, Bool.and_eq_true] at h
  exact FrameFits.of_payload h.1.1.1 rfl _ _

theorem FrameFits.status (seq : Byte) (args : List Byte) : FrameFits.Statement (.status seq args) := by
  intro h g e
  cases e
  exact FrameFits.of_args h _ _

theorem FrameFits.noticeFetch (seq : Byte) (args : List Byte) : FrameFits.Statement (.noticeFetch seq args) := by
  intro h g e
  cases e
  exact FrameFits.of_args h _ _

theorem FrameFits.rackRead (seq : Byte) (args : List Byte) : FrameFits.Statement (.rackRead seq args) := by
  intro h g e
  cases e
  exact FrameFits.of_args h _ _

theorem FrameFits.latchRead (seq : Byte) (args : List Byte) : FrameFits.Statement (.latchRead seq args) := by
  intro h g e
  cases e
  exact FrameFits.of_args h _ _

theorem FrameFits.channelRead (seq : Byte) (args : List Byte) : FrameFits.Statement (.channelRead seq args) := by
  intro h g e
  cases e
  exact FrameFits.of_args h _ _

theorem FrameFits.tableRead (seq : Byte) (args : List Byte) : FrameFits.Statement (.tableRead seq args) := by
  intro h g e
  cases e
  simp only [Instr.wellFormed, Bool.and_eq_true] at h
  exact FrameFits.of_args h.1 _ _

theorem FrameFits.tableReadRun (seq : Byte) (args : List Byte) : FrameFits.Statement (.tableReadRun seq args) := by
  intro h g e
  cases e
  simp only [Instr.wellFormed, Bool.and_eq_true] at h
  exact FrameFits.of_args h.1 _ _

theorem FrameFits.levelRead (seq : Byte) (args : List Byte) : FrameFits.Statement (.levelRead seq args) := by
  intro h g e
  cases e
  exact FrameFits.of_args h _ _

theorem FrameFits.seqLock (seq : Byte) (args : List Byte) : FrameFits.Statement (.seqLock seq args) := by
  intro h g e
  cases e
  exact FrameFits.of_args h _ _

theorem FrameFits.seqUnlock (seq : Byte) (args : List Byte) : FrameFits.Statement (.seqUnlock seq args) := by
  intro h g e
  cases e
  exact FrameFits.of_args h _ _

theorem FrameFits.tableWrite (seq : Byte) (args : List Byte) : FrameFits.Statement (.tableWrite seq args) := by
  intro h g e
  cases e
  simp only [Instr.wellFormed, Bool.and_eq_true] at h
  exact FrameFits.of_args h.1.1 _ _

theorem FrameFits.tableWriteFirst (seq : Byte) (args : List Byte)
    : FrameFits.Statement (.tableWriteFirst seq args) := by
  intro h g e
  cases e
  simp only [Instr.wellFormed, Bool.and_eq_true] at h
  exact FrameFits.of_args h.1 _ _

theorem FrameFits.tableWriteLast (seq : Byte) (args : List Byte) : FrameFits.Statement (.tableWriteLast seq args) := by
  intro h g e
  cases e
  simp only [Instr.wellFormed, Bool.and_eq_true] at h
  exact FrameFits.of_args h.1 _ _

theorem FrameFits.arm (seq : Byte) (args : List Byte) : FrameFits.Statement (.arm seq args) := by
  intro h g e
  cases e
  exact FrameFits.of_args h _ _

theorem FrameFits.disarm (seq : Byte) (args : List Byte) : FrameFits.Statement (.disarm seq args) := by
  intro h g e
  cases e
  exact FrameFits.of_args h _ _

theorem FrameFits.park (seq : Byte) (args : List Byte) : FrameFits.Statement (.park seq args) := by
  intro h g e
  cases e
  exact FrameFits.of_args h _ _

theorem FrameFits.wake (seq : Byte) (args : List Byte) : FrameFits.Statement (.wake seq args) := by
  intro h g e
  cases e
  exact FrameFits.of_args h _ _

theorem FrameFits.faultClear (seq : Byte) (args : List Byte) : FrameFits.Statement (.faultClear seq args) := by
  intro h g e
  cases e
  exact FrameFits.of_args h _ _

theorem FrameFits.containClear (seq : Byte) (args : List Byte) : FrameFits.Statement (.containClear seq args) := by
  intro h g e
  cases e
  exact FrameFits.of_args h _ _

theorem FrameFits.retainRelease (seq : Byte) (args : List Byte) : FrameFits.Statement (.retainRelease seq args) := by
  intro h g e
  cases e
  exact FrameFits.of_args h _ _

theorem FrameFits.maskSet (seq : Byte) (args : List Byte) : FrameFits.Statement (.maskSet seq args) := by
  intro h g e
  cases e
  exact FrameFits.of_args h _ _

theorem FrameFits.softReset (seq : Byte) (args : List Byte) : FrameFits.Statement (.softReset seq args) := by
  intro h g e
  cases e
  exact FrameFits.of_args h _ _

theorem FrameFits.replySent : FrameFits.Statement .replySent := fun _ _ e => nomatch e

theorem FrameFits.nSendEnd : FrameFits.Statement .nSendEnd := fun _ _ e => nomatch e

theorem FrameFits.nodeReply (f : Frame) : FrameFits.Statement (.nodeReply f) := fun _ _ e => nomatch e

theorem FrameFits.miss (late : Option Frame) : FrameFits.Statement (.miss late) := fun _ _ e => nomatch e

theorem FrameFits.stray (f : Frame) : FrameFits.Statement (.stray f) := fun _ _ e => nomatch e

theorem FrameFits.arbiterChoice : FrameFits.Statement .arbiterChoice := fun _ _ e => nomatch e

theorem FrameFits.roomListAppend : FrameFits.Statement .roomListAppend := fun _ _ e => nomatch e

theorem FrameFits.ageCheck : FrameFits.Statement .ageCheck := fun _ _ e => nomatch e

theorem FrameFits.creditTick : FrameFits.Statement .creditTick := fun _ _ e => nomatch e

theorem FrameFits.watchInterval : FrameFits.Statement .watchInterval := fun _ _ e => nomatch e

theorem FrameFits.silenceExpiry : FrameFits.Statement .silenceExpiry := fun _ _ e => nomatch e

theorem FrameFits.stepDeadline : FrameFits.Statement .stepDeadline := fun _ _ e => nomatch e

theorem FrameFits.seqLockExpiry : FrameFits.Statement .seqLockExpiry := fun _ _ e => nomatch e

theorem FrameFits.checkCompletion : FrameFits.Statement .checkCompletion := fun _ _ e => nomatch e

theorem FrameFits.lineClockAdvance : FrameFits.Statement .lineClockAdvance := fun _ _ e => nomatch e

theorem FrameFits.replyBeginsToArrive : FrameFits.Statement .replyBeginsToArrive := fun _ _ e => nomatch e

end Sys2Proof.Laws
end

