-- ==== Sys2Proof/Laws/Readings.lean ====
section
/-! SUPPORT. Every stage of taking a reading, the image's other events and the age check are framed events. -/

namespace Sys2Proof.Machine

section
variable {s t : State} (h : s.EventFrame t)
include h

/-! ### The journal -/

/-- The journal may take records in ARMED alone, at most 32, with credits and credit lists in range. -/
theorem State.EventFrame.setJournal (j : Journal)
    (hc : t.Capacities → j.racks.length ≤ 32 ∧ ∀ r ∈ j.racks,
      (∀ c ∈ r.credits, c.heat ≤ 65535 ∧ c.action ≤ 65535) ∧ r.credits.length ≤ 8)
    (hr : t.mgmt.engine ≠ .armed → t.journal.racks = [] → j.racks = []) : s.EventFrame (t.setJournal j) := by
  refine h.trans' ?_
  constructor
  case capacities =>
    exact fun a => ⟨a.queue, a.notices, (hc a).1, a.levels, a.misses, a.latches, a.repeats, fun r hr => ((hc a).2 r hr).1,
      fun r hr => ((hc a).2 r hr).2, a.sigs, a.runs⟩
  case form => exact fun f => ⟨f.check, f.watch, f.silence, f.credit, fun e => hr e (f.racks e), f.levels⟩
  case answered => exact .inl ⟨rfl, rfl⟩
  all_goals first | rfl | exact .inl rfl | exact fun h => h | simp

/-- A journal whose records are some of the old ones, each with its own credits. -/
theorem State.EventFrame.setJournal_sub (j : Journal) (hl : j.racks.length ≤ t.journal.racks.length)
    (hm : ∀ r ∈ j.racks, ∃ q ∈ t.journal.racks, r.credits = q.credits) : s.EventFrame (t.setJournal j) := by
  refine h.setJournal j (fun a => ⟨hl.trans a.racks, fun r hr => ?_⟩) fun _ e => ?_
  · obtain ⟨q, hq, e⟩ := hm r hr
    exact ⟨fun c hc => a.credits q hq c (e ▸ hc), e ▸ a.lists q hq⟩
  · rw [e] at hl
    exact List.length_eq_zero_iff.1 (Nat.le_zero.1 hl)

theorem State.EventFrame.setJournal_same (j : Journal) (hj : j.racks = t.journal.racks) : s.EventFrame (t.setJournal j) :=
  h.setJournal_sub j (by rw [hj]) fun r hr => ⟨r, hj ▸ hr, rfl⟩

theorem State.EventFrame.trackFault (k : TrackCause) (tag : Option Tag) : s.EventFrame (t.trackFault k tag) := by
  unfold State.trackFault
  exact (h.notify _ _ _ _).raise _ _

theorem State.EventFrame.appendOrder (i : Nat) (v : Half) (o : Origin) (hr : t.queueHasRoom = true)
    (hp : o ≠ .phase) (hc : ∀ c, o ≠ .controller c) : s.EventFrame (t.appendOrder i v o) :=
  h.gate ((State.GateFrame.refl t).appendOrder i v o hr hp hc)

theorem State.EventFrame.offerIndicator : s.EventFrame t.offerIndicator := by
  unfold State.offerIndicator
  split
  · split
    · rename_i hr
      exact h.appendOrder _ _ _ hr (by simp) (by simp)
    · exact h
  · exact h

theorem State.EventFrame.removeRack (k : Nat) (m : Bool) : s.EventFrame (t.removeRack k m) := by
  unfold State.removeRack
  split
  · exact h
  · have g := h.setJournal_sub { t.journal with racks := t.journal.racks.eraseIdx k } (List.length_eraseIdx_le _ _)
      fun r hr => ⟨r, List.mem_of_mem_eraseIdx hr, rfl⟩
    dsimp only
    split
    · exact g.notify _ _ _ _
    · exact (g.notify _ _ _ _).offerIndicator

theorem State.EventFrame.removeMissed (k : Nat) : s.EventFrame (t.removeMissed k) := by
  unfold State.removeMissed
  split
  · exact h
  · exact (h.removeRack _ _).trackFault _ _

omit h in
theorem newCredits_zero (tb : Tables) : ∀ c ∈ tb.newCredits, c.heat = 0 ∧ c.action = 0 := by
  intro c hc
  unfold Tables.newCredits at hc
  obtain ⟨z, _, e⟩ := List.mem_filterMap.1 hc
  split at e
  · split at e
    · cases e; exact ⟨rfl, rfl⟩
    · cases e
  · cases e

omit h in
theorem newCredits_length (tb : Tables) : tb.newCredits.length ≤ 8 :=
  (List.length_filterMap_le _ _).trans (by simp [Config.zones])

theorem State.EventFrame.addRack (hl : t.journal.racks.length < 32) (ha : t.mgmt.engine = .armed) :
    s.EventFrame t.addRack := by
  unfold State.addRack
  refine h.setJournal _ (fun a => ⟨?_, ?_⟩) fun e => absurd ha e
  · simp; omega
  · intro r hr
    rcases List.mem_append.1 hr with g | g
    · exact ⟨a.credits r g, a.lists r g⟩
    · simp at g; subst g
      refine ⟨fun c hc => ?_, newCredits_length _⟩
      have := newCredits_zero _ c hc
      omega

theorem State.EventFrame.modifyRacks (k : Nat) (f : Rack → Rack) (j : Journal)
    (hj : j.racks = t.journal.racks.modify k f) (hf : ∀ r, (f r).credits = r.credits) : s.EventFrame (t.setJournal j) := by
  refine h.setJournal_sub j (by simp [hj]) fun r hr => ?_
  rw [hj] at hr
  obtain ⟨n, hn⟩ := List.mem_iff_getElem?.1 hr
  rw [List.getElem?_modify] at hn
  cases e : t.journal.racks[n]? with
  | none => simp [e] at hn
  | some q =>
    refine ⟨q, List.mem_iff_getElem?.2 ⟨n, e⟩, ?_⟩
    simp only [e, Option.map_eq_map, Option.map_some, Option.some.injEq] at hn
    split at hn
    · rw [← hn, hf]
    · rw [← hn]

theorem State.EventFrame.entryBlocked (ha : t.mgmt.engine = .armed) : s.EventFrame t.entryBlocked := by
  unfold State.entryBlocked
  split
  · exact h.addRack ‹_› ha
  · exact (h.setJournal_same { t.journal with overflow := true } rfl).trackFault _ _

theorem State.EventFrame.entryCleared : s.EventFrame t.entryCleared := by
  unfold State.entryCleared
  split
  · exact h.setJournal_same _ rfl
  · split
    · split
      · exact h.modifyRacks _ _ _ rfl fun _ => rfl
      · exact h
    · exact h

theorem State.EventFrame.exitBlocked : s.EventFrame t.exitBlocked := by
  unfold State.exitBlocked
  split
  · split
    · dsimp only
      split
      · exact h.trackFault _ _
      · split
        · exact h.modifyRacks _ _ _ rfl fun _ => rfl
        · exact h.removeMissed _
    · exact h
  · exact h.trackFault _ _
  · exact h

theorem State.EventFrame.exitCleared : s.EventFrame t.exitCleared := by
  unfold State.exitCleared
  split
  · exact h.removeRack _ _
  · exact h

theorem State.EventFrame.entryEye (b : Bool) : s.EventFrame (t.entryEye b) := by
  unfold State.entryEye
  split
  · exact h
  · dsimp only
    split
    · rename_i ha
      split
      · exact (h.entryBlocked ha).setJournal_same _ rfl
      · exact h.entryCleared.setJournal_same _ rfl
    · exact h.setJournal_same _ rfl

theorem State.EventFrame.exitEye (b : Bool) : s.EventFrame (t.exitEye b) := by
  unfold State.exitEye
  split
  · exact h
  · dsimp only
    split
    · split
      · exact h.exitBlocked.setJournal_same _ rfl
      · exact h.exitCleared.setJournal_same _ rfl
    · exact h.setJournal_same _ rfl

theorem State.EventFrame.advanceTravel (v : Half) : s.EventFrame (t.advanceTravel v) := by
  unfold State.advanceTravel
  have g : s.EventFrame (t.setJournal
      { t.journal with travel := t.journal.travel + v.setWidth 24,
                       racks := t.journal.racks.map fun r => r.ceil (t.journal.travel + v.setWidth 24) }) := by
    refine h.setJournal_sub _ (by simp) fun r hr => ?_
    obtain ⟨q, hq, e⟩ := List.mem_map.1 hr
    refine ⟨q, hq, ?_⟩
    rw [← e]
    unfold Rack.ceil
    split <;> rfl
  dsimp only
  split
  · split
    · split
      · exact g.removeMissed _
      · exact g
    · exact g
  · exact g

theorem State.EventFrame.journalReading (i : Nat) (v : Half) (ok : Bool) : s.EventFrame (t.journalReading i v ok) := by
  unfold State.journalReading
  split
  · exact h
  · split
    · dsimp only
      have step : ∀ {u : State} (p : Prop) [Decidable p] (f : State → State),
          s.EventFrame u → (s.EventFrame u → s.EventFrame (f u)) → s.EventFrame (if p then f u else u) := by
        intro u p _ f hu hf
        split
        · exact hf hu
        · exact hu
      refine step _ (fun u => u.advanceTravel v) ?_ fun g => g.advanceTravel v
      refine step _ (fun u => u.exitEye _) ?_ fun g => g.exitEye _
      exact step _ (fun u => u.entryEye _) h fun g => g.entryEye _
    · exact h

/-! ### The image and the monitor -/

theorem State.EventFrame.modImage (i : Nat) (f : ImageCell → ImageCell) : s.EventFrame (t.modImage i f) := by
  refine h.trans' ?_
  constructor
  case capacities =>
    exact fun a => ⟨a.queue, a.notices, a.racks, a.levels, a.misses, a.latches, a.repeats, a.credits, a.lists, a.sigs, a.runs⟩
  case form => exact fun f => ⟨f.check, f.watch, f.silence, f.credit, f.racks, f.levels⟩
  case answered => exact .inl ⟨rfl, rfl⟩
  all_goals first | rfl | exact .inl rfl | exact fun h => h | simp

omit h in
theorem State.runAt_setRun (g k : Nat) (r : SigRun) (s : State) :
    (s.setRun g r).runAt k = if g = k ∧ k < 48 then r else s.runAt k := by
  simp only [State.runAt, State.setRun, Vector.getElem?_setIfInBounds]
  by_cases e : g = k
  · subst e
    by_cases l : g < 48 <;> simp [l]
  · simp [e]

/-- A run state may be replaced by one whose count is in range. -/
theorem State.EventFrame.setRun (g : Nat) (r : SigRun) (hr : t.Capacities → r.count ≤ 15) :
    s.EventFrame (t.setRun g r) := by
  refine h.trans' ?_
  constructor
  case capacities =>
    refine fun a => ⟨a.queue, a.notices, a.racks, a.levels, a.misses, a.latches, a.repeats, a.credits, a.lists, a.sigs,
      fun k => ?_⟩
    rw [State.runAt_setRun]
    split
    · exact hr a
    · exact a.runs k
  case form => exact fun f => ⟨f.check, f.watch, f.silence, f.credit, f.racks, f.levels⟩
  case answered => exact .inl ⟨rfl, rfl⟩
  all_goals first | rfl | exact .inl rfl | exact fun h => h | simp

theorem State.EventFrame.settleSignature (g : Nat) (e : SigEntry) (ev : Evaluation) (a : Option (Half × Clock))
    (he : t.sigAt g = some e) : s.EventFrame (t.settleSignature g e ev a) := by
  unfold State.settleSignature
  dsimp only
  split
  · exact h.setRun _ _ fun c => c.runs g
  · exact h.setRun _ _ fun _ => Nat.zero_le _
  · split
    · exact (h.setRun _ _ (by exact fun _ => Nat.zero_le _)).raise _ _
    · rename_i hp
      refine h.setRun _ _ fun c => ?_
      have := c.sigs g e he
      show (t.runAt g).count + 1 ≤ 15
      omega

theorem State.EventFrame.evalReading (g i : Nat) (v : Half) (ok : Bool) : s.EventFrame (t.evalReading g i v ok) := by
  unfold State.evalReading
  split
  · exact h
  · rename_i e he
    split
    · dsimp only
      split
      · exact h.settleSignature _ _ _ _ he
      · exact h.settleSignature _ _ _ _ he
    · exact h

theorem State.EventFrame.monitorReading (i : Nat) (v : Half) (ok : Bool) : s.EventFrame (t.monitorReading i v ok) :=
  h.foldl _ _ fun _ g f => f.evalReading g i v ok

theorem State.EventFrame.evalStale (g i : Nat) : s.EventFrame (t.evalStale g i) := by
  unfold State.evalStale
  split
  · exact h
  · rename_i e he
    split
    · exact h.settleSignature _ _ _ _ he
    · exact h

theorem State.EventFrame.monitorStale (i : Nat) : s.EventFrame (t.monitorStale i) :=
  h.foldl _ _ fun _ g f => f.evalStale g i

/-! ### Readings, acknowledgements, misses and ages -/

theorem State.EventFrame.takeReading (i : Nat) (v : Half) (ok : Bool) : s.EventFrame (t.takeReading i v ok) := by
  unfold State.takeReading
  exact (((h.markWaits.modImage _ _).journalReading _ _ _).monitorReading _ _ _).executorReading _ _ _

theorem State.EventFrame.offerReply (f : Sys2Proof.Frame) : s.EventFrame (t.offerReply f) := by
  unfold State.offerReply
  split
  · exact h
  · split
    · exact h.takeReading _ _ _
    · split
      · unfold State.takeAck
        split
        · exact h.modImage _ _
        · exact h
      · exact h

theorem State.EventFrame.clearKeepPending (o : Origin) : s.EventFrame (t.clearKeepPending o) := by
  unfold State.clearKeepPending
  split
  · exact h.modImage _ _
  · exact h

theorem State.EventFrame.missPoll (f : Sys2Proof.Frame) : s.EventFrame (t.missPoll f) := by
  unfold State.missPoll
  split
  · split
    · split
      · exact h.modImage _ _
      · exact h
    · exact h
  · exact h

theorem State.EventFrame.appendPoll (i : Nat) (o : Origin) (hr : t.queueHasRoom = true)
    (hp : o ≠ .phase) (hc : ∀ c, o ≠ .controller c) : s.EventFrame (t.appendPoll i o) :=
  h.gate (State.appendPoll_frame i o t hr hp hc)

theorem State.EventFrame.keepFreshTest (i : Nat) (r : RouteEntry) : s.EventFrame (t.keepFreshTest i r) := by
  unfold State.keepFreshTest
  split
  · rename_i hk
    have hr : t.queueHasRoom = true := by
      have : t.arbiter.queue.length < 8 := hk.2
      simp [State.queueHasRoom, Config.queueCapacity]; omega
    exact (h.appendPoll _ _ hr (by simp) (by simp)).modImage _ _
  · exact h

theorem State.EventFrame.staleTest (i : Nat) (r : RouteEntry) : s.EventFrame (t.staleTest i r) := by
  unfold State.staleTest
  split
  · exact (h.modImage _ _).monitorStale _
  · exact h

theorem State.EventFrame.ageEntry (e : Engine) (i : Nat) : s.EventFrame (t.ageEntry e i) := by
  unfold State.ageEntry
  split
  · exact h
  · split
    · dsimp only
      split
      · split
        · exact (h.staleTest _ _).keepFreshTest _ _
        · exact h.keepFreshTest _ _
      · split
        · exact h.staleTest _ _
        · exact h
    · exact h

theorem State.EventFrame.ageAll : s.EventFrame t.ageAll := h.foldl _ _ fun _ i f => f.ageEntry _ i

theorem State.EventFrame.offerWatchPoll (i : Nat) : s.EventFrame (t.offerWatchPoll i) := by
  unfold State.offerWatchPoll
  split
  · rename_i hk
    have hr : t.queueHasRoom = true := by
      have : t.arbiter.queue.length < 8 := hk.2.1
      simp [State.queueHasRoom, Config.queueCapacity]; omega
    exact h.appendPoll _ _ hr (by simp) (by simp)
  · exact h

end

end Sys2Proof.Machine
end

