-- ==== Sys2Proof/Laws/RoomList.lean ====
section
/-! SUPPORT. What the room list, ownership and a plan order do, said once in the terms of Safety: `RoomFills`, `OwnerChanges`,
`ReplayRecalled`, `OrderWithdrawn`, `OrderPlaced`. -/

namespace Sys2Proof.Machine

/-! ### The room list -/

/-- Steps 4 and 5 of the gate give the value `gateValue`. -/
theorem State.clamped_inhibited (s : State) (i : Nat) (r : RouteEntry) (v : Half) :
    s.clamped i r (s.inhibited r v) = s.gateValue i r v := by
  have e : s.inhibited r v = if r.kind = .heater ∧ s.contain.engaged = true then 0 else v := by
    unfold State.inhibited
    by_cases h : v = 0
    · subst h; simp
    · by_cases k : r.kind = .heater <;> by_cases c : s.contain.engaged = true <;> simp [k, c]
  rw [e]
  unfold State.clamped State.gateValue
  show (if s.conveyorRef = some i then capTo s.capInForce (clampTo r _) else clampTo r _) = _
  unfold capTo
  cases s.capInForce with
  | none => simp only [ite_self]; rfl
  | some cap => by_cases c : s.conveyorRef = some i <;> simp only [c, true_and, false_and, if_true, if_false] <;> rfl

theorem State.appendOrder_eq {s : State} {i : Nat} {r : RouteEntry} (h : s.routeAt i = some r) (v : Half) (o : Origin) :
    s.appendOrder i v o = s.orderAtTail r v o := by
  unfold State.appendOrder
  rw [h]
  rfl

/-- A room-list entry is appended as its rule says. -/
theorem State.appendRoomEntry_taken (e : RoomEntry) (s : State) : s.RoomEntryTaken e (s.appendRoomEntry e) := by
  cases e with
  | plan d st i v =>
    intro r h
    show (s.appendOrder i v _).roomBecomesAck d = _
    rw [State.appendOrder_eq h]
    rfl
  | replay i =>
    intro r h
    show (∀ w, _ → (_ → s.decideReplay i = _) ∧ (_ → s.decideReplay i = _)) ∧ (_ → s.decideReplay i = s)
    unfold State.decideReplay
    rw [h]
    refine ⟨fun w hw => ?_, fun hw => ?_⟩
    · rw [hw]
      refine ⟨fun m => ?_, fun m => ?_⟩
      · exact if_pos m
      · rw [← State.clamped_inhibited, ← State.appendOrder_eq h]
        exact if_neg (by rw [State.ctlProtected, m]; simp)
    · split
      · exact absurd ‹_› (hw _)
      · rfl
  | handBack i =>
    intro r h
    show (∀ v, _ → s.appendHandBack i = _) ∧ (_ → s.appendHandBack i = s)
    unfold State.appendHandBack
    refine ⟨fun v hv => ?_, fun hv => ?_⟩
    · rw [hv]
      dsimp only
      rw [State.appendOrder_eq h]
    · rw [hv]

/-- Appending an entry neither reads nor writes the room list. -/
theorem State.appendRoomEntry_setRoom (e : RoomEntry) (es : List RoomEntry) (s : State) :
    (s.setRoom es).appendRoomEntry e = (s.appendRoomEntry e).setRoom es := by
  cases e with
  | plan d st i v =>
    show ((s.setRoom es).appendOrder i v _).roomBecomesAck d = ((s.appendOrder i v _).roomBecomesAck d).setRoom es
    unfold State.appendOrder
    rw [show (s.setRoom es).routeAt i = s.routeAt i from rfl]
    cases s.routeAt i <;> rfl
  | replay i =>
    show (s.setRoom es).decideReplay i = (s.decideReplay i).setRoom es
    unfold State.decideReplay State.appendOrder
    rw [show (s.setRoom es).routeAt i = s.routeAt i from rfl, show (s.setRoom es).gateAt i = s.gateAt i from rfl]
    cases (s.gateAt i).held <;> cases s.routeAt i <;> try rfl
    rename_i v r
    show (if s.ctlProtected r = true then _ else _) = State.setRoom es (if s.ctlProtected r = true then _ else _)
    split <;> rfl
  | handBack i =>
    show (s.setRoom es).appendHandBack i = (s.appendHandBack i).setRoom es
    unfold State.appendHandBack State.appendOrder
    rw [show (s.setRoom es).routeAt i = s.routeAt i from rfl, show (s.setRoom es).gateAt i = s.gateAt i from rfl]
    cases (s.gateAt i).handBack <;> cases s.routeAt i <;> rfl

theorem fillFrom_fills (es : List RoomEntry) (s : State) : (s.setRoom es).RoomFills (fillFrom es s) := by
  induction es generalizing s with
  | nil => exact .full (.inl rfl)
  | cons e es ih =>
    unfold fillFrom
    by_cases h : s.arbiter.queue.length < 16
    · rw [if_pos (by simpa [State.queueHasRoom] using h)]
      refine .next (es := es) rfl h ?_ (ih _)
      show State.RoomEntryTaken e (s.setRoom es) _
      rw [← State.appendRoomEntry_setRoom]
      exact State.appendRoomEntry_taken _ _
    · rw [if_neg (by simpa [State.queueHasRoom] using h)]
      exact .full (.inr (by simpa using h))

/-- The room list fills the places of the queue. -/
theorem State.fillRoom_fills (s : State) : s.RoomFills s.fillRoom := fillFrom_fills s.arbiter.room s

/-! ### Ownership -/

/-- Two updates of one gate entry are one. -/
theorem State.modGate_modGate (i : Nat) (f g : GateCell → GateCell) (s : State) :
    (s.modGate i f).modGate i g = s.modGate i fun c => g (f c) := by
  by_cases h : i < 64
  · have e : (s.modGate i f).gateAt i = f (s.gateAt i) := by rw [State.gateAt_modGate, if_pos ⟨rfl, h⟩]
    unfold State.modGate at *
    rw [e]
    simp
  · unfold State.modGate
    dsimp only
    congr 2
    rw [Vector.setIfInBounds_eq_of_size_le (by omega), Vector.setIfInBounds_eq_of_size_le (by omega),
      Vector.setIfInBounds_eq_of_size_le (by omega)]

/-- An update that leaves a gate entry as it stands leaves the state. -/
theorem State.modGate_self {i : Nat} {f : GateCell → GateCell} {s : State} (h : f (s.gateAt i) = s.gateAt i) :
    s.modGate i f = s := by
  unfold State.modGate
  rw [h]
  have : s.gate.cells.setIfInBounds i (s.gateAt i) = s.gate.cells := by
    apply Vector.ext
    intro k hk
    rw [Vector.getElem_setIfInBounds]
    split
    · subst i; simp [State.gateAt, hk]
    · rfl
  rw [this]

theorem State.setOwner_changes (i : Nat) (o : Owner) (s : State) : s.OwnerChanges i o (s.setOwner i o) := by
  unfold State.setOwner
  refine ⟨fun h => if_pos h, fun h => ?_⟩
  rw [if_neg h]
  unfold State.dropHandBack State.removeQueued State.removeRoom
  rw [State.modGate_modGate]
  convert State.fillRoom_fills _ using 1
  simp only [decide_not]
  rfl

theorem State.recallReplay_recalled (i : Nat) (s : State) : s.ReplayRecalled i (s.recallReplay i) := by
  have w : s.replayWaits i = true ↔ ((∃ q ∈ s.arbiter.queue, q.origin = .replay i) ∨ RoomEntry.replay i ∈ s.arbiter.room) := by
    simp [State.replayWaits]
  unfold State.recallReplay
  refine ⟨fun h => if_neg fun g => h (w.1 g), fun h => ?_⟩
  rw [if_pos (w.2 h)]
  have e : s.replayTakenBack i = s.modGate i fun g => { g with held := match (s.gateAt i).held with
      | .replayDue w => .held w
      | h => h } := by
    unfold State.replayTakenBack
    cases g : (s.gateAt i).held with
    | replayDue v => rfl
    | empty => dsimp only; exact (State.modGate_self (by rw [← g])).symm
    | held v => dsimp only; exact (State.modGate_self (by rw [← g])).symm
  unfold State.dropReplay
  rw [if_pos (by rw [e]; exact w.2 h), e]
  unfold State.removeQueued State.removeRoom
  convert State.fillRoom_fills _ using 1
  simp only [decide_not]
  rfl

theorem State.withdrawForPlan_withdrawn (i : Nat) (s : State) : s.OrderWithdrawn i (s.withdrawForPlan i) := by
  unfold State.withdrawForPlan
  refine ⟨fun req w h => ?_, fun h => ?_⟩
  · rw [h]
    exact if_pos rfl
  · split
    · rename_i req j v g
      exact if_neg (by rintro rfl; exact h _ v g rfl)
    · rfl

/-! ### The running level -/

theorem State.running_of {s : State} {b : List Level} {l : Level} (h : s.levels = b ++ [l]) : s.running = some l := by
  simp [State.running, h]

theorem State.topDepth_of {s : State} {b : List Level} {l : Level} (h : s.levels = b ++ [l]) : s.topDepth = b.length := by
  simp [State.topDepth, h]

theorem State.modTop_of {s : State} {b : List Level} {l : Level} (h : s.levels = b ++ [l]) (f : Level → Level) :
    s.modTop f = s.setLevels (b ++ [f l]) := by
  unfold State.modTop
  rw [State.topDepth_of h, h]
  congr 1
  clear h
  induction b with
  | nil => rfl
  | cons a b ih => simpa using ih

/-- The levels after a gate operation: the same, but for the waits it may have ended. -/
theorem State.GateFrame.levels_of {s t : State} (g : s.GateFrame t) {b : List Level} {l : Level}
    (h : s.levels = b ++ [l]) : ∃ k, t.levels = t.levels.dropLast ++ [{ l with wait := k }] ∧
      t.levels.dropLast.length = b.length := by
  have e := g.levels
  rw [h] at e
  simp only [List.map_append, List.map_cons, List.map_nil] at e
  obtain ⟨b', x, hx⟩ : ∃ b' x, t.levels = b' ++ [x] := by
    have : t.levels ≠ [] := by intro h0; rw [h0] at e; simp at e
    exact ⟨_, _, (List.dropLast_append_getLast this).symm⟩
  rw [hx] at e
  simp only [List.map_append, List.map_cons, List.map_nil] at e
  have i := List.append_inj' e rfl
  have j : ({ x with wait := .none } : Level) = { l with wait := .none } := by simpa using i.2
  refine ⟨x.wait, ?_, ?_⟩
  · rw [hx]
    simp only [List.dropLast_concat]
    have := congrArg (fun y : Level => ({ y with wait := x.wait } : Level)) j
    simp only at this
    rw [← this]
  · rw [hx]
    simpa using congrArg List.length i.1

/-- A plan order is placed as its rule says. -/
theorem State.placeOrder_placed {s : State} {b : List Level} {l : Level} (h : s.levels = b ++ [l]) (i : Nat) (v : Half)
    (phase : Nat) : s.OrderPlaced b l i v phase (s.placeOrder i v phase) := by
  intro r hr
  refine ⟨_, _, _, State.setOwner_changes _ _ _, State.recallReplay_recalled _ _, State.withdrawForPlan_withdrawn _ _, ?_⟩
  have g : s.GateFrame (s.takeChannel i b.length) := (State.GateFrame.refl s).takeChannel i b.length
  have ht : ((s.setOwner i (.level b.length)).recallReplay i).withdrawForPlan i = s.takeChannel i b.length := rfl
  rw [ht]
  have p : s.placeOrder i v phase =
      let u := (s.takeChannel i b.length).modTop fun l => { l with touched := touch i v l.touched }
      if u.queueHasRoom then (u.appendOrder i v (.plan b.length l.step i)).waitFor .ack phase none
      else (u.setRoom (u.arbiter.room ++ [.plan b.length l.step i v])).waitFor .queueRoom phase none := by
    unfold State.placeOrder
    rw [State.running_of h, State.topDepth_of h]
  rw [p]
  generalize s.takeChannel i b.length = t at g
  obtain ⟨k, hk, hb⟩ := g.levels_of h
  have hrt : t.routeAt i = some r := by rw [← hr]; unfold State.routeAt; rw [g.tables]
  rw [State.modTop_of hk]
  dsimp only
  have hq : ∀ L, (t.setLevels L).queueHasRoom = decide (t.arbiter.queue.length < 16) := fun _ => rfl
  have ho : ∀ L o, (t.setLevels L).appendOrder i v o = (t.setLevels L).orderAtTail r v o :=
    fun L o => State.appendOrder_eq (s := t.setLevels L) hrt v o
  rw [hq, ho]
  refine ⟨fun q => ?_, fun q => ?_⟩
  · rw [if_pos (by simpa using q)]
    unfold State.waitFor
    rw [State.modTop_of (b := t.levels.dropLast) (l := { l with wait := k, touched := touch i v l.touched }) rfl]
    rfl
  · rw [if_neg (by simpa using q)]
    unfold State.waitFor
    rw [State.modTop_of (b := t.levels.dropLast) (l := { l with wait := k, touched := touch i v l.touched }) rfl]
    rfl

end Sys2Proof.Machine
end

