-- ==== Sys2Proof/Laws/Router.lean ====
section
/-! SUPPORT. Every command that is a controller frame is that frame's reception; its bytes read back. -/

namespace Sys2Proof.Machine

theorem ofCode_code (r : Request) : Request.ofCode r.code.toNat = some r := by cases r <;> rfl

/-- A management request is the reception of its frame, whichever command carries it. -/
theorem request_eq (r : Request) (seq : Byte) (args : List Byte) (s : State) :
    s.request r (State.serve r) seq args = s.receiveC (requestFrame r seq args) := by
  unfold State.request State.receiveC State.onCPort
  split
  · rfl
  · split
    · rfl
    · split
      · rfl
      · simp [State.classify, State.handlePart, State.handleMgmt, requestFrame, ctlFrame, ofCode_code]

/-- A command that is a controller frame is its reception on the C-port (R110 to R113). -/
theorem exec_controllerFrame {c : Instr} {f : Sys2Proof.Frame} (h : c.controllerFrame = some f) (s : State) :
    exec c s = .next (s.receiveC f) := by
  cases c <;> simp only [Instr.controllerFrame, Option.some.injEq, reduceCtorEq] at h <;> subst h <;> rfl

theorem receiveC_busy {f : Sys2Proof.Frame} {s : State} (hm : f.malformed = false) (hi : s.ports.cport ≠ .idle) :
    s.receiveC f = s.setOverrun := by
  simp [State.receiveC, State.onCPort, hm, State.cIdle, hi]

theorem receiveC_discard {f : Sys2Proof.Frame} {s : State} (hm : f.malformed = false) (hi : s.ports.cport = .idle)
    (ha : acceptable f = false) : s.receiveC f = s := by
  simp [State.receiveC, State.onCPort, hm, State.cIdle, hi, ha]

theorem receiveC_accept {f : Sys2Proof.Frame} {s : State} (hm : f.malformed = false) (hi : s.ports.cport = .idle)
    (ha : acceptable f = true) : s.receiveC f = (s.accept f).classify f s.mgmt.prefixArmed := by
  simp [State.receiveC, State.onCPort, hm, State.cIdle, hi, ha]

/-- A request that reaches its own rule is served by it (R152). -/
theorem receiveC_served {r : Request} {args : List Byte} {s : State} (h : s.Reaches r args) (seq : Byte) :
    s.receiveC (requestFrame r seq args) = s.opened.serve r seq args := by
  have hm : (requestFrame r seq args).malformed = false := by
    have := h.fits
    simp [Sys2Proof.Frame.malformed, requestFrame, ctlFrame]; omega
  have ha : acceptable (requestFrame r seq args) = true := rfl
  have e : s.accept (requestFrame r seq args) = s.opened := rfl
  rw [receiveC_accept hm h.idle ha, e]
  have hk : (Config.partAddress = Config.broadcastAddress) = False := by simp
  have hc := h.complete
  simp only [State.classify, State.handlePart, State.handleMgmt, requestFrame, ctlFrame, hk, if_false, if_true,
    ofCode_code, State.handleRequest]
  have h1 : ¬ ((r.guarded && !s.mgmt.prefixArmed) = true) := by
    cases g : r.guarded
    · simp
    · simp [h.prefixed g]
  have h2 : ¬ ((r.guarded && decide (s.opened.engine = .checking) && decide (r ≠ .softReset)) = true) := by
    intro x
    simp only [Bool.and_eq_true, decide_eq_true_eq] at x
    have : s.opened.engine = s.mgmt.engine := by
      unfold State.opened State.restartSilence; split <;> rfl
    exact h.notBusy x.1.1 x.2 (this ▸ x.1.2)
  have h3 : ¬ (args.length < r.minArgs args) := by omega
  rw [if_neg h1, if_neg h2, if_neg h3]
  rfl

/-! ### The bytes of a frame -/

theorem half_bytes (v : Half) : half (hiByte v) (loByte v) = v := by
  unfold half hiByte loByte
  ext i
  simp
  grind

end Sys2Proof.Machine
end

