-- ==== Sys2Proof/Tests/Slice0.lean ====
section
/-! SUPPORT. Tests: the well-formedness checks, the manual's worked figures, one step of the commands, and for every
statement with hypotheses a state and operands that meet them (the theorems `test_meets_…`, named after the statement). -/

open Sys2Proof Sys2Proof.Machine

-- The tests are evaluated one after another: evaluated together, each would hold a thread of its own.
set_option Elab.async false

namespace Sys2Proof.Tests

/-! ### A small machine, after sections 1.10, 2.8, 3.9 and 11 -/

/-- A route entry with clamp 0 to `most`, keep-fresh age 1 s and stale limit 3 s. -/
def route (node chan : Byte) (kind : RouteKind) (zone : Option Nat) (group most : Nat) : RouteEntry :=
  { node := node, chan := chan, kind := kind, zone := zone, group := group, keepFresh := 10, stale := 30,
    clampMin := 0, clampMax := most }

/-- The LINE record of section 1.10, with the eyes and the ADVANCE channel at entries 0, 1 and 2. -/
def line : LineRecord :=
  { replyTimeout := 20, silence := 5, entryEye := 0, exitEye := 1, advance := 2, conveyor := some 50,
    indicator := none, exitPos := 1400, exitTol := 20, maxLength := 120, watchInterval := 10 }

/-- The final-rinse curve of section 2.4. -/
def rinseCurve : CurveEntry :=
  { count := 5, points := [⟨780, 0⟩, ⟨800, 4⟩, ⟨820, 10⟩, ⟨850, 24⟩, ⟨880, 40⟩, ⟨0, 0⟩, ⟨0, 0⟩, ⟨0, 0⟩] }

/-- The wash zone's action curve of section 2.4. -/
def washCurve : CurveEntry :=
  { count := 3, points := [⟨100, 0⟩, ⟨150, 6⟩, ⟨200, 10⟩, ⟨0, 0⟩, ⟨0, 0⟩, ⟨0, 0⟩, ⟨0, 0⟩, ⟨0, 0⟩] }

/-- A zone without equipment; the tank figures are those of section 2.9. -/
def zone (kind : ZoneKind) (start stop : Nat) (temp press : Option Nat) (heat act : Nat) : ZoneEntry :=
  { kind := kind, start := start, stop := stop, temp := temp, press := press, heatCurve := 4, heatTarget := heat,
    actCurve := 2, actTarget := act, level := none, heater := none, pump := none, inlet := none, drain := none,
    volume := 18, drainRate := 6, drainOffset := 2, refillRate := 9, refillOffset := 1, emptyLevel := 40,
    operLevel := 520 }

/-- A signature without gates. -/
def sig (test : SigTest) (chA : Nat) (threshold : Int) (window persistence cls : Nat) : SigEntry :=
  { test := test, chA := chA, chB := none, threshold := threshold, window := window, gateCount := 0,
    gate1 := { ref := 0, on := false }, gate2 := { ref := 0, on := false }, persistence := persistence, cls := cls,
    zone := none }

/-- The machine's tables: Z3 and Z5 of section 2.8 with their channels, the eyes, a heater and the conveyor. -/
def tables : Tables :=
  let t := Tables.reset
  { t with
    line := some line
    route := (((((((t.route.set 0 (some (route 1 0 .eyeEntry none 0 0))).set 1
      (some (route 1 1 .eyeExit none 0 0))).set 2 (some (route 1 2 .advance none 0 0))).set 12
      (some (route 14 2 .temp (some 5) 0 0))).set 21 (some (route 13 2 .pressure (some 3) 0 0))).set 34
      (some (route 14 3 .heater (some 5) 0 100))).set 50 (some (route 40 0 .conveyor none 1 90)))
    zone := (t.zone.set 3 (some (zone .wash 400 700 none (some 21) 0 1500))).set 5
      (some (zone .finalRinse 1100 1220 (some 12) none 2000 0))
    curve := (t.curve.set 4 (some rinseCurve)).set 2 (some washCurve) }

/-- These tables with an indicator at entry 60. -/
def lamp (t : Tables) : Tables :=
  { t with
    line := some { line with indicator := some 60 }
    route := t.route.set 60 (some (route 41 0 .indicator none 0 100)) }

/-- The part in CONFIG with these tables. -/
def machine : State := State.reset.setTables tables

/-- The same part, ARMED. -/
def armed : State := machine.setEngine .armed

/-- ARMED in PRODUCTION, with the silence timer running. -/
def producing : State := (armed.setPhase .production).setSilence (some 500)

/-- In WATCH, with the watch deadline. -/
def watching : State := (machine.setEngine .watch).setWatch (some 1000)

/-- A guarded request is next: a prefix stands armed. -/
def prefixed (s : State) : State := s.setPrefix true

/-- The tables with one more signature, PLAN slot or SELECT row. -/
def withSig (g : Nat) (e : SigEntry) (s : State) : State :=
  s.setTables { s.tables with signature := s.tables.signature.setIfInBounds g (some e) }
def withSlot (plan step : Nat) (p : PlanSlot) (s : State) : State :=
  s.setTables { s.tables with plan := s.tables.plan.setIfInBounds (12 * plan + step) (some p) }
def withSelect (c plan : Nat) (s : State) : State :=
  s.setTables { s.tables with
    select := s.tables.select.setIfInBounds c (some ⟨some plan, some plan, some plan, some plan, some plan, some plan⟩) }

/-- A step slot that fails to FAIL. -/
def slot (kind : StepKind) (subject : Byte) (value timeout : Half) : PlanSlot :=
  { kind := kind, subject := subject, value := value, timeout := timeout, failTarget := none }

/-- A level of class 7 and plan 0. -/
def level (step : Nat) : Level :=
  { cls := 7, plan := 0, step := step, wait := .none, tankPhase := 0, deadline := none, touched := [], cap := none,
    lockout := false, justBegun := false }

/-- A tank with its level channel, heater and valves, and its zone entry 6. -/
def tank : ZoneEntry :=
  { zone .rinse 700 800 none none 0 0 with
    level := some 44, heater := some 34, inlet := some 45, drain := some 46 }
def withTank (z : ZoneEntry) (s : State) : State :=
  s.setTables { s.tables with
    route := ((s.tables.route.set 44 (some (route 13 3 .level (some 6) 0 0))).set 45
      (some (route 13 4 .inlet (some 6) 2 100))).set 46 (some (route 13 5 .drain (some 6) 2 100))
    zone := s.tables.zone.set 6 (some z) }

/-- A rack that entered at 1000, of length 60. -/
def rack (tag : Tag) (state : RackState) : Rack :=
  { tag := tag, entryTravel := 1000, length := if state = .entering then none else some 60, state := state,
    merged := false, rerun := false, credits := [⟨3, 0, 0, false⟩, ⟨5, 0, 0, false⟩], overlap := none }

/-- The journal holds these racks at a line travel, the eyes as given. -/
def withRacks (travel : Travel) (racks : List Rack) (entryLast exitLast : Bool) (s : State) : State :=
  s.setJournal { travel := travel, racks := racks, nextTag := 20, overflow := false, entryLast := entryLast,
                 exitLast := exitLast }

/-- Frames of a node. -/
def reading (node chan : Byte) (v : Half) (dst seq : Byte) : Sys2Proof.Frame :=
  { dst := dst, src := node, kind := Kind.reading, seq := seq, payload := [chan, hiByte v, loByte v, 0] }
def ack (node chan : Byte) (v : Half) (dst seq : Byte) : Sys2Proof.Frame :=
  { dst := dst, src := node, kind := Kind.ack, seq := seq, payload := [chan, 0, hiByte v, loByte v] }

/-- A node transaction is open. -/
def withTrans (req : Sys2Proof.Frame) (o : Origin) (timing begun : Bool) (s : State) : State :=
  (s.setCPort .waiting).setTrans
    (some { req := req, origin := o, timeoutMs := 20, timing := timing, begun := begun, expired := false })

/-! ### Evaluation -/

/-- The state a command leaves, where it answers a next state. -/
def ran (c : Instr) (s : State) : Option State :=
  match exec c s with
  | .next t => some t
  | _ => none

/-- The state a command leaves. -/
def after (c : Instr) (s : State) : State := (ran c s).getD s

theorem exec_of_ran {c : Instr} {s t : State} (h : ran c s = some t) : exec c s = .next t := by
  unfold ran at h
  split at h <;> simp_all

theorem exec_after {c : Instr} {s : State} (h : (ran c s).isSome = true) : exec c s = .next (after c s) := by
  obtain ⟨t, e⟩ := Option.isSome_iff_exists.mp h
  exact exec_of_ran (by simp [after, e])

/-- A step answers a next state. -/
def steps (s : State) : Bool :=
  match step s with
  | .next _ => true
  | _ => false

theorem step_of_steps {s : State} (h : steps s = true) : ∃ t, step s = .next t := by
  unfold steps at h
  split at h
  · exact ⟨_, by assumption⟩
  · simp at h

/-- The frame the part is replying with. -/
def answer (s : State) : Option Sys2Proof.Frame :=
  match s.ports.cport with
  | .replying f => some f
  | _ => none

/-- Kind, status flags and payload of the reply, in numbers. -/
def answerBytes (s : State) : Option (List Nat) := (answer s).map fun f => f.payload.map BitVec.toNat

/-! ### Well-formedness refuses ill-formed commands -/

theorem test_wf_malformedFrame :
    Instr.wellFormed (.malformedFrame .cPort (encodeFrame (pollFrame 1 2 3))) = false := by decide +kernel
theorem test_wf_cFrameDiscard : Instr.wellFormed (.cFrameDiscard (pollFrame 0x41 2 3)) = false := by decide +kernel
theorem test_wf_controllerOrder : Instr.wellFormed (.controllerOrder 61 0 0 0) = false := by decide
theorem test_wf_controllerPoll : Instr.wellFormed (.controllerPoll 0 0 0) = false := by decide
theorem test_wf_transparentFrame :
    Instr.wellFormed (.transparentFrame (ctlFrame 5 Kind.phase 0 [])) = false ∧
    Instr.wellFormed (.transparentFrame (ctlFrame 62 9 0 [])) = false ∧
    Instr.wellFormed (.transparentFrame { ctlFrame 5 9 0 [] with src := 7 }) = false := by decide +kernel
theorem test_wf_payload :
    Instr.wellFormed (.phase 0 (List.replicate 17 0)) = false ∧
    Instr.wellFormed (.prefixFrame 0 (List.replicate 17 0)) = false := by decide
theorem test_wf_mgmtUnknown :
    Instr.wellFormed (.mgmtUnknown Kind.mgmtReq 0 [0x19]) = false ∧
    Instr.wellFormed (.mgmtUnknown Kind.prefixKind 0 []) = false ∧
    Instr.wellFormed (.mgmtUnknown 9 0 (List.replicate 17 0)) = false := by decide +kernel
theorem test_wf_args : Instr.wellFormed (.arm 0 (List.replicate 16 0)) = false := by decide
theorem test_wf_tables :
    Instr.wellFormed (.tableRead 0 [0x54, 0]) = false ∧ Instr.wellFormed (.tableReadRun 0 [0x50, 0]) = false ∧
    Instr.wellFormed (.tableWrite 0 [0x31, 0]) = false ∧ Instr.wellFormed (.tableWriteFirst 0 [0x30, 0]) = false ∧
    Instr.wellFormed (.tableWriteLast 0 [0x31, 0]) = false := by decide +kernel
theorem test_wf_node :
    Instr.wellFormed (.nodeReply { reading 1 0 0 61 0 with payload := List.replicate 17 0 }) = false ∧
    Instr.wellFormed (.stray { reading 1 0 0 61 0 with dst := 0x80 }) = false := by decide +kernel
/-- No row of the table has bits, so no word spells a command. -/
theorem test_decode : decodeTableWord 16 0x1234 = none := rfl

/-! ### Worked figures -/

/-- The check string of a CRC with this polynomial and start value: the ASCII digits 1 to 9 (R110's parameters). -/
theorem test_crc : crc16 [0x31, 0x32, 0x33, 0x34, 0x35, 0x36, 0x37, 0x38, 0x39] = 0x29B1 := by decide +kernel
/-- R163: DST, SRC, KIND and flags, SEQ, LEN, payload. -/
theorem test_frame_bytes :
    (encodeFrame { dst := 61, src := 62, kind := Kind.mgmtReply, flags := { attn := true }, seq := 7,
                   payload := [1, 0] }).take 7 = [61, 62, 0x88, 7, 2, 1, 0] := by decide +kernel
/-- Section 2.4, worked weights. -/
theorem test_weights :
    ([750, 780, 790, 800, 832, 849, 850, 880, 1720].map rinseCurve.weight) = [0, 0, 2, 4, 15, 23, 24, 40, 40] ∧
    washCurve.weight 178 = 8 ∧ CurveEntry.weight { count := 2, points := [⟨500, 200⟩, ⟨700, 50⟩] } 613 = 116 := by
  decide +kernel
/-- Section 2.9, worked tank timings: 128 s and 172 s. -/
theorem test_tank :
    tankDeadline 35911 18 6 2 0 = some 48711 ∧ tankDeadline 45408 18 9 1 0 = some 62608 ∧
    tankDeadline 0 18 0 0 1800 = some 18000 := by decide +kernel
/-- Section 1.10: rack 17 enters, and its centre. -/
theorem test_centre :
    (rack 17 .entering).centre 1030 = 15 ∧ (rack 17 .inLine).centre 1085 = 55 ∧ (rack 17 .inLine).centre 1225 = 195 := by
  decide +kernel

/-! ### One step of the commands -/

theorem test_resetN : (after .resetN producing).mgmt.engine = .config ∧ (after .resetN producing).tables.line = none := by
  decide +kernel
theorem test_malformed :
    (after (.malformedFrame .cPort [1, 2, 3]) armed).ports.sticky = { Sticky.reset with badC := true } ∧
    (after (.malformedFrame .nPort []) armed).ports.sticky = { Sticky.reset with badN := true } := by decide +kernel
/-- R112: a frame while a transaction is open sets OVERRUN; one for another address changes nothing. -/
theorem test_discard :
    (after (.cFrameDiscard (pollFrame 14 2 3)) (armed.setCPort .waiting)).ports.sticky.overrun = true ∧
    (after (.cFrameDiscard (ctlFrame 61 9 3 [])) armed).ports.sticky.overrun = false := by decide +kernel
/-- Section 11.1: the conveyor's clamp is 0 to 90, so an order of 95 is sent as 90. -/
theorem test_order :
    (after (.controllerOrder 40 0 95 9) armed).arbiter.waiting =
      some { req := orderFrame 40 0 95 9, kind := .order 50 90 } := by decide +kernel
/-- Section 11.1: an order for a channel that a level owns is held and answered ACK HELD with the applied value. -/
theorem test_order_held :
    let s := after (.controllerOrder 40 0 80 9) (armed.modGate 50 fun g => { g with owner := .level 0 })
    answerBytes s = some [0, 2, 0, 0] ∧ (s.gateAt 50).held = .held 80 := by decide +kernel
theorem test_poll :
    (after (.controllerPoll 14 2 7) armed).arbiter.waiting = some { req := pollFrame 14 2 7, kind := .poll 12 } := by
  decide +kernel
theorem test_transparent :
    (after (.transparentFrame (ctlFrame 14 9 7 [1])) armed).arbiter.waiting =
      some { req := ctlFrame 14 9 7 [1], kind := .transparent } := by decide +kernel
theorem test_phase :
    (after (.phase 4 [3]) armed).ports.phase = .production ∧ (after (.phase 4 [3]) armed).time.silence = some 500 ∧
    (after (.phase 4 [6]) armed).ports.sticky.badPhase = true := by decide +kernel
theorem test_prefix : answerBytes (after (.prefixFrame 5 []) machine) = some [0, 0] := by decide +kernel
/-- R152: UNKNOWN is code 14. -/
theorem test_unknown : answerBytes (after (.mgmtUnknown Kind.mgmtReq 5 [0x20]) machine) = some [0x20, 14] := by
  decide +kernel
theorem test_status :
    answerBytes (after (.status 1 []) producing) =
      some [1, 0, 0x23, 0x0F, 0xFF, 0xFF, 0xFF, 0, 0, 0, 0, 0xFF, 0, 0, 0, 0] := by decide +kernel
theorem test_noticeFetch :
    answerBytes (after (.noticeFetch 1 []) (armed.notify .checkDone 0 0xFFFF 0xFFFF)) =
      some [2, 0, 13, 0, 0, 0, 0, 0, 0, 0xFF, 0xFF, 0xFF, 0xFF, 0] := by decide +kernel
/-- R164: index, tag, state IN_LINE and entry travel 1000 of rack 17 on page 0. -/
theorem test_rackRead :
    (answerBytes (after (.rackRead 1 [1, 0, 17, 0]) (withRacks 1225 [rack 17 .inLine] false false armed))).map
      (fun b => b.take 9) = some [3, 0, 0, 0, 17, 1, 0, 3, 232] := by decide +kernel
theorem test_latchRead :
    answerBytes (after (.latchRead 1 [7]) armed) =
      some [4, 0, 1, 0, 0, 255, 255, 255, 255, 255, 255, 255, 255, 0] := by decide +kernel
theorem test_channelRead :
    answerBytes (after (.channelRead 1 [34]) armed) = some [5, 0, 9, 14, 3, 0, 0, 0, 0, 255, 255, 0, 0] := by
  decide +kernel
theorem test_tableRead :
    answerBytes (after (.tableRead 1 [0x20, 50]) armed) = some [6, 0, 40, 0, 13, 255, 1, 10, 30, 0, 90] := by
  decide +kernel
theorem test_tableReadRun :
    (answerBytes (after (.tableReadRun 1 [0x54, 3]) (withSig 3 (sig .above 12 820 1 1 7) armed))).map
      (fun b => b.take 4) = some [6, 0, 0, 0] := by decide +kernel
theorem test_levelRead :
    answerBytes (after (.levelRead 1 [0, 0]) (armed.setLevels [level 3])) =
      some [7, 0, 0x80, 7, 0, 3, 0, 255, 255, 255, 0, 0] := by decide +kernel
/-- R145: the lock's deadline stands 50 units ahead. -/
theorem test_seqLock :
    (after (.seqLock 1 []) (armed.setClock 100)).gate.lock = some 150 ∧
    (after (.seqUnlock 1 []) (armed.setLock (some 150))).gate.lock = none := by decide +kernel
/-- R117: an entry out of range is BAD_VALUE, and one that holds another's pair DUPLICATE (results 6 and 7). -/
theorem test_tableWrite :
    answerBytes (after (.tableWrite 1 [0x20, 5, 61, 0, 1, 255, 0, 0, 0, 0, 0]) (prefixed machine)) = some [0x10, 6] ∧
    answerBytes (after (.tableWrite 1 [0x20, 5, 14, 2, 1, 255, 0, 0, 0, 0, 0]) (prefixed machine)) = some [0x10, 7] := by
  decide +kernel
/-- R160: a CURVE in two parts. -/
theorem test_tableWriteParts :
    (after (.tableWriteFirst 1 [0x41, 1, 5, 3, 12, 0, 3, 32, 4, 3, 52, 10, 3, 82, 24]) (prefixed machine)).mgmt.staging =
      some { table := .curve, index := 1, data := [5, 3, 12, 0, 3, 32, 4, 3, 52, 10, 3, 82, 24] } ∧
    (after (.tableWriteLast 1 [0x42, 1, 3, 112, 40, 0, 0, 0, 0, 0, 0, 0, 0, 0])
      (prefixed (machine.setStaging (some
        { table := .curve, index := 1, data := [5, 3, 12, 0, 3, 32, 4, 3, 52, 10, 3, 82, 24] })))).curveAt 1 =
      some rinseCurve := by decide +kernel
theorem test_arm : answerBytes (after (.arm 1 []) (prefixed machine)) = some [0x11, 1] := by decide +kernel
theorem test_disarm : (after (.disarm 1 []) (prefixed armed)).mgmt.engine = .config := by decide +kernel
theorem test_park : (after (.park 1 [1]) (prefixed armed)).time.watchDeadline = some 1000 := by decide +kernel
theorem test_wake : (after (.wake 1 []) (prefixed watching)).mgmt.engine = .armed := by decide +kernel
theorem test_faultClear :
    ((after (.faultClear 1 [7]) (prefixed (armed.setLatch 7 { Latch.reset with state := .failed }))).latchAt 7).state =
      .clear := by decide +kernel
theorem test_containClear :
    (after (.containClear 1 []) (prefixed (armed.setContain ⟨true, some ⟨1, none⟩, 2⟩))).contain.engaged = false := by
  decide +kernel
/-- R106: a held order of a RETAINED channel becomes due for replay. -/
theorem test_retainRelease :
    ((after (.retainRelease 1 []) (prefixed (armed.modGate 50 fun g =>
      { g with owner := .retained, held := .held 80 }))).gateAt 50) =
      { GateCell.reset with held := .replayDue 80 } := by decide +kernel
theorem test_maskSet : (after (.maskSet 1 [3, 5]) (prefixed armed)).gate.planMask = 5 := by decide +kernel
theorem test_softReset : answerBytes (after (.softReset 1 []) (prefixed producing)) = some [0x19, 0] := by decide +kernel
/-- R154: the check begins when ARM's reply has gone. -/
theorem test_replySent :
    (after .replySent ((machine.setEngine .checking).setCPort (.replying (ack 1 0 0 61 0)))).mgmt.checkBegan =
      some 0 := by decide +kernel
theorem test_nSendEnd :
    ((after .nSendEnd ((withTrans (pollFrame 14 2 7) (.controller ⟨pollFrame 14 2 7, .poll 12⟩) false false
      armed).setSending (some (pollFrame 14 2 7)))).ports.trans.map (·.timing)) = some true := by decide +kernel
/-- Section 2.8: a reading of 832 from the Z5 temperature channel. -/
theorem test_nodeReply :
    (after (.nodeReply (reading 14 2 832 61 7)) (withTrans (pollFrame 14 2 7)
      (.controller ⟨pollFrame 14 2 7, .poll 12⟩) true true armed)).imageAt 12 =
      { value := 832, status := .fresh, lastReading := some 0, pollRef := some 0, keepPending := false, applied := 0 } := by
  decide +kernel
/-- Section 1.10: the entry eye reads 1 and a rack is recorded with tag 20, the next tag here. -/
theorem test_rack_enters :
    (after (.nodeReply (reading 1 0 1 61 7)) (withTrans (pollFrame 1 0 7)
      (.controller ⟨pollFrame 1 0 7, .poll 0⟩) true true (withRacks 1000 [] false false armed))).journal =
      { travel := 1000, racks := [rack 20 .entering], nextTag := 21, overflow := false, entryLast := true,
        exitLast := false } := by decide +kernel
theorem test_miss :
    answerBytes (after (.miss none) (withTrans (ctlFrame 14 9 7 [1]) (.controller ⟨ctlFrame 14 9 7 [1], .transparent⟩)
      true false armed)) = some [1, 5, 0, 0] := by decide +kernel
theorem test_stray : (after (.stray (reading 9 0 1 62 7)) armed).ports.sticky.stray = true := by decide +kernel
theorem test_arbiterChoice :
    (after .arbiterChoice (armed.setWaiting (some ⟨pollFrame 14 2 7, .poll 12⟩))).ports.sending =
      some (pollFrame 14 2 7) := by decide +kernel
theorem test_roomListAppend :
    (after .roomListAppend (armed.setRoom [.plan 0 0 50 60])).arbiter.room = [] := by decide +kernel
/-- Section 3.9: an entry read at 0 with stale limit 3 s is stale once its age is above 300 units, not at 300. -/
theorem test_ageCheck :
    let s := armed.modImage 12 fun _ => ⟨832, .fresh, some 0, some 0, false, 0⟩
    ((after .ageCheck ((s.setClock 300).setAgeDue true)).imageAt 12).status = .fresh ∧
    ((after .ageCheck ((s.setClock 310).setAgeDue true)).imageAt 12).status = .stale := by decide +kernel
/-- Section 2.8: a centre in Z5 earns 15 at 832; Z3's entry keeps its credit. -/
theorem test_creditTick :
    (after .creditTick ((withRacks 2180 [rack 17 .inLine] false false
      (armed.modImage 12 fun _ => ⟨832, .fresh, some 0, some 0, false, 0⟩)).setCreditDue true)).journal.racks.map
        (·.credits) = [[⟨3, 0, 0, false⟩, ⟨5, 15, 0, false⟩]] := by decide +kernel
theorem test_watchInterval : (after .watchInterval (watching.setClock 1000)).time.watchDeadline = some 2000 := by
  decide +kernel
/-- R72: the expiry sets the next deadline, 5 s on, and raises class 10. -/
theorem test_silenceExpiry :
    (after .silenceExpiry (producing.setClock 500)).time.silence = some 1000 ∧
    ((after .silenceExpiry (producing.setClock 500)).latchAt 10).count = 1 := by decide +kernel
theorem test_stepDeadline :
    let s := withSlot 0 1 (slot .waitFor 12 820 0) (withSlot 0 0 (slot .waitTime 0 0 600) armed)
    ((after .stepDeadline ((s.setLevels [{ level 0 with wait := .time, deadline := some 6000 }]).setClock
      6000)).levels.map (·.step)) = [1] := by decide +kernel
theorem test_seqLockExpiry :
    (after .seqLockExpiry ((armed.setLock (some 150)).setClock 149)).gate.lock = some 150 ∧
    (after .seqLockExpiry ((armed.setLock (some 150)).setClock 150)).gate.lock = none := by decide +kernel
theorem test_checkCompletion :
    (after .checkCompletion ((State.reset.setEngine .checking).setCheck (some 0))).mgmt.detail =
      { table := 1, index := 0, sub := 0, reason := .lineUnwritten } := by decide +kernel
theorem test_clock :
    (after .lineClockAdvance (armed.setClock 0xFFFFFFFF)).time.clock = 0 ∧
    (after .lineClockAdvance (armed.setClock 24)).time.creditDue = true := by decide +kernel
theorem test_replyBegins :
    (after .replyBeginsToArrive (withTrans (pollFrame 14 2 7) (.keepFresh 12) true false armed)).ports.trans.map
      (·.begun) = some true := by decide +kernel

/-! ### States and operands that meet the statements' hypotheses -/

theorem all_none {α : Type} {o : Option α} (h : o = none) {p : α → Prop} : ∀ c, o = some c → p c := by simp [h]

theorem not_due {h : HeldSlot} (e : h = .empty) : ∀ w, h ≠ .replayDue w := by simp [e]

theorem reaches {s : State} {r : Request} {args : List Byte}
    (h : s.ports.cport = .idle ∧ args.length ≤ 15 ∧ r.minArgs args ≤ args.length ∧
      (r.guarded = true → s.mgmt.prefixArmed = true) ∧
      (r.guarded = true → r ≠ .softReset → s.mgmt.engine ≠ .checking)) : s.Reaches r args :=
  ⟨h.1, h.2.1, h.2.2.1, h.2.2.2.1, h.2.2.2.2⟩

/-- Every queue, list and count at its capacity. -/
def full : State :=
  let s := ((armed.setNotices (List.replicate 16 ⟨.wake, 0, 0, 0, 0, false⟩)).setLevels
    [level 0, level 1, level 11]).setQueue
      (List.replicate 16 { frame := ctlFrame 63 Kind.phase 0 [3], origin := .phase })
  { s with
    journal := { s.journal with
      racks := List.replicate 32 { rack 17 .inLine with credits := List.replicate 8 ⟨3, 65535, 65535, true⟩ } }
    tables := { tables with signature := Vector.replicate 48 (some (sig .bad 12 0 1 15 7)) }
    monitor := Vector.replicate 48 ⟨15, .hit, none⟩
    latches := Vector.replicate 12 { state := .failed, count := 255, firstCause := none, ending := some .noPlan }
    contain := { engaged := true, firstCause := none, repeats := 255 }
    ports := { s.ports with misses := Vector.replicate 61 3 }
    pending := [.lineClockAdvance] }

theorem full_capacities : full.Capacities where
  queue := by decide +kernel
  notices := by decide +kernel
  racks := by decide +kernel
  levels := by decide +kernel
  misses := by decide +kernel
  latches c := by
    simp only [full, State.latchAt, Vector.getElem?_replicate]
    split <;> decide
  repeats := by decide +kernel
  credits := by decide +kernel
  lists := by decide +kernel
  sigs g e h := by
    simp only [full, State.sigAt, Vector.getElem?_replicate] at h
    split at h <;> cases h
    decide
  runs g := by
    simp only [full, State.runAt, Vector.getElem?_replicate]
    split <;> decide

theorem test_meets_StepRunsTheFrontCommand :
    ({ armed with pending := [.replySent, .creditTick] } : State).pending = .replySent :: [.creditTick] ∧
    armed.pending = [] := ⟨rfl, rfl⟩

theorem test_meets_StepKeepsCapacities :
    full.Capacities ∧ ∃ t, step full = .next t :=
  ⟨full_capacities, step_of_steps (by decide +kernel)⟩

/-- In ARMED with the silence timer running, in WATCH with a watch deadline, in CHECKING with a running check. -/
theorem test_meets_StepKeepsEngineForm :
    (producing.EngineForm ∧ ∃ t, step { producing with pending := [.replySent] } = .next t) ∧
    watching.EngineForm ∧ ((machine.setEngine .checking).setCheck (some 0)).EngineForm := by
  refine ⟨⟨⟨?_, ?_, ?_, ?_, ?_, ?_⟩, step_of_steps (by decide +kernel)⟩, ⟨?_, ?_, ?_, ?_, ?_, ?_⟩, ⟨?_, ?_, ?_, ?_, ?_, ?_⟩⟩ <;>
    decide +kernel

/-- An accepted frame waits for the N-side, with a forwarded PHASE and a keep-fresh poll in the queue. -/
theorem test_meets_StepKeepsOneTransaction :
    let s := ((armed.setCPort .waiting).setWaiting (some ⟨pollFrame 14 2 7, .poll 12⟩)).setQueue
      [⟨ctlFrame 63 Kind.phase 0 [3], .phase⟩, ⟨pollFrame 14 2 0, .keepFresh 12⟩]
    s.QueueForm ∧ s.OneTransaction ∧ ∃ t, step { s with pending := [.arbiterChoice] } = .next t := by
  refine ⟨?_, ⟨by decide +kernel, by decide +kernel⟩, step_of_steps (by decide +kernel)⟩
  intro q hq
  simp only [State.setQueue, List.mem_cons, List.not_mem_nil, or_false] at hq
  obtain rfl | rfl := hq <;> simp [ctlFrame, pollFrame]

theorem test_meets_ExecKeepsTheCommandQueue : exec .creditTick armed = .next (after .creditTick armed) :=
  exec_after (by decide +kernel)

theorem test_meets_StructuralTablesChangeInConfigAlone :
    (armed.mgmt.engine ≠ .config ∧
      exec (.tableWrite 1 [0x60, 7, 0]) (prefixed armed) = .next (after (.tableWrite 1 [0x60, 7, 0]) (prefixed armed)) ∧
      ((after (.tableWrite 1 [0x60, 7, 0]) (prefixed armed)).classAt 7).enable = false) ∧
    (watching.mgmt.engine ≠ .config ∧ watching.mgmt.engine ≠ .armed ∧
      exec .watchInterval watching = .next (after .watchInterval watching)) :=
  ⟨⟨by decide, exec_after (by decide +kernel), by decide +kernel⟩, by decide, by decide, exec_after (by decide +kernel)⟩

theorem test_meets_OtherCommandsKeepTheClock :
    Instr.creditTick ≠ .resetN ∧ Instr.creditTick ≠ .lineClockAdvance ∧
    exec .creditTick armed = .next (after .creditTick armed) := ⟨by decide, by decide, exec_after (by decide +kernel)⟩

/-- Each change of engine state happens: ARM, a check that passes, a check that fails, DISARM, PARK and WAKE. -/
theorem test_meets_EngineStateFollowsItsTable :
    let changes := fun (c : Instr) (s : State) =>
      c ≠ .resetN ∧ (ran c s).isSome = true ∧ (after c s).mgmt.engine ≠ s.mgmt.engine
    changes (.arm 1 []) (prefixed machine) ∧
    (changes .checkCompletion ((machine.setEngine .checking).setCheck (some 0)) ∧
      (after .checkCompletion ((machine.setEngine .checking).setCheck (some 0))).mgmt.engine = .armed) ∧
    changes .checkCompletion ((State.reset.setEngine .checking).setCheck (some 0)) ∧
    changes (.disarm 1 []) (prefixed armed) ∧ changes (.park 1 [0]) (prefixed armed) ∧
    changes (.wake 1 []) (prefixed watching) := by decide +kernel

/-- A level's order of 100 for the heater leaves as 0. -/
theorem test_meets_HeaterOrdersLeaveAsZero :
    let o : Sys2Proof.Frame := { ctlFrame 14 Kind.order 0 [3, 0, 100] with src := 62, flags := { engine := true } }
    let s := ((armed.setLevels [level 0]).setContain ⟨true, some ⟨1, none⟩, 0⟩).setQueue [⟨o, .plan 0 0 34⟩]
    s.QueueForm ∧ s.contain.engaged = true ∧ (∀ c, s.arbiter.waiting = some c → c.kind ≠ .transparent) ∧
    s.ports.sending = none ∧ exec .arbiterChoice s = .next (after .arbiterChoice s) ∧
    (after .arbiterChoice s).ports.sending = some { o with payload := [3, 0, 0] } ∧
    Sys2Proof.Frame.isOrder { o with payload := [3, 0, 0] } = true ∧
    s.findRoute 14 3 = some (34, route 14 3 .heater (some 5) 0 100) := by
  refine ⟨?_, by decide +kernel, all_none (by decide +kernel), by decide +kernel, exec_after (by decide +kernel),
    by decide +kernel, by decide +kernel, by decide +kernel⟩
  intro q hq
  simp only [State.setQueue, List.mem_cons, List.not_mem_nil, or_false] at hq
  subst hq
  simp [ctlFrame]

theorem test_meets_FramesSurviveTheWire :
    (ctlFrame 63 Kind.phase 255 (List.replicate 16 255)).malformed = false ∧ (pollFrame 1 0 0).malformed = false := by
  decide

theorem test_meets_EntriesReadBackAsCommitted :
    (parseLine [5, 60, 0, 63, 2, 255, 63, 6, 64, 63, 200, 60]).isSome = true ∧
    (parseRoute [60, 15, 14, 255, 7, 255, 255, 100, 100]).isSome = true ∧
    (parseZone [5, 0, 0, 6, 64, 255, 63, 7, 255, 255, 0, 0, 0] [255, 0, 1, 2, 3, 40, 255, 63, 3, 232, 0, 0]).isSome =
      true ∧
    (parseCurveSingle [4, 0, 0, 255, 0, 1, 0, 1, 0, 9, 5, 220, 1]).isSome = true ∧
    (parseCurveJoined [8, 0, 0, 255, 0, 1, 0, 1, 0, 9, 2, 0, 1] [3, 0, 0, 4, 0, 0, 5, 0, 9, 5, 220, 1]).isSome = true ∧
    (parseSignature [5, 63, 255, 0xFC, 0x18, 2, 88, 2, 191, 63, 15, 11, 7]).isSome = true ∧
    (parseClass [0xFF]).isSome = true ∧ (parseSelect [0, 23, 255, 1, 2, 3]).isSome = true ∧
    (parsePlanSlot [11, 7, 0xBF, 255, 255, 0, 0, 255]).isSome = true := by decide +kernel

/-- At position 0; at 19 of a rack of length 40, whose centre is −1; at 20, whose centre is 0. -/
theorem test_meets_CentreOfARecord :
    (rack 1 .entering).state = .entering ∧ (rack 1 .entering).position 1000 = 0 ∧
    (let r := { rack 1 .inLine with length := some 40 }
     r.state ≠ .entering ∧ r.state = .inLine ∧ r.length = some 40 ∧ r.position 1019 < 20 ∧ r.centre 1019 < 0 ∧
     r.centre 1020 = 0) := by decide +kernel

theorem test_meets_CurveHoldsItsEndWeights :
    (2 ≤ rinseCurve.count ∧ rinseCurve.count ≤ rinseCurve.points.length ∧
      ascending (rinseCurve.points.take rinseCurve.count) = true ∧ rinseCurve.points[0]? = some ⟨780, 0⟩ ∧
      rinseCurve.points[rinseCurve.count - 1]? = some ⟨880, 40⟩) ∧
    (let c : CurveEntry := { count := 2, points := [⟨0, 255⟩, ⟨1500, 0⟩] }
     2 ≤ c.count ∧ c.count ≤ c.points.length ∧ ascending (c.points.take c.count) = true ∧
     c.points[0]? = some ⟨0, 255⟩ ∧ c.points[c.count - 1]? = some ⟨1500, 0⟩) := by decide +kernel

theorem test_meets_CurveInterpolatesTowardZero :
    let c : CurveEntry := { count := 2, points := [⟨0, 255⟩, ⟨1500, 0⟩] }
    2 ≤ c.count ∧ 0 + 1 < c.count ∧ c.count ≤ c.points.length ∧ ascending (c.points.take c.count) = true ∧
    (∀ b ∈ c.points.take c.count, b.x ≤ 1500 ∧ b.w ≤ 255) ∧ c.points[0]? = some ⟨0, 255⟩ ∧
    c.points[1]? = some ⟨1500, 0⟩ ∧ 0 ≤ 0 ∧ 1499 < 1500 := by decide +kernel

/-- A rack in Z5 with the temperature fresh and then stale, one in Z3 with the pressure fresh and then never read, and one
in no zone. -/
theorem test_meets_CreditTickCreditsEveryRecord :
    let at_ := fun (t : Travel) (s : State) => (withRacks t [rack 17 .inLine] false false s).setCreditDue true
    let z := fun (t : Travel) => tables.zoneOf ((rack 17 .inLine).centre t)
    (watching.mgmt.engine ≠ .armed ∧ armed.time.creditDue = false) ∧
    (at_ 2130 armed).mgmt.engine = .armed ∧ (at_ 2130 armed).time.creditDue = true ∧
    (at_ 2130 armed).journal.racks[0]? = some (rack 17 .inLine) ∧ (rack 17 .inLine).credits[1]? = some ⟨5, 0, 0, false⟩ ∧
    z 2129 ≠ some 5 ∧ z 2130 = some 5 ∧ armed.zoneAt 5 = some (zone .finalRinse 1100 1220 (some 12) none 2000 0) ∧
    armed.curveAt 4 = some rinseCurve ∧
    ((armed.modImage 12 fun _ => ⟨832, .fresh, some 0, some 0, false, 0⟩).imageAt 12).status = .fresh ∧
    (armed.imageAt 12).status ≠ .fresh ∧
    (rack 17 .inLine).credits[0]? = some ⟨3, 0, 0, false⟩ ∧ z 1430 = some 3 ∧ z 1729 = some 3 ∧ z 1730 ≠ some 3 ∧
    armed.zoneAt 3 = some (zone .wash 400 700 none (some 21) 0 1500) ∧ armed.curveAt 2 = some washCurve ∧
    ((armed.modImage 21 fun _ => ⟨178, .fresh, some 0, some 0, false, 0⟩).imageAt 21).status = .fresh ∧
    (armed.imageAt 21).status ≠ .fresh ∧
    (zone .finalRinse 1100 1220 (some 12) none 2000 0).actTarget = 0 ∧
    (zone .wash 400 700 none (some 21) 0 1500).heatTarget = 0 ∧ (armed.curveAt 4).isSome = true := by decide +kernel

/-- The journal's cases: an empty and a full journal at the entry eye, the clearing edge, an overflow's end; no IN_LINE
record, and one at 1379, 1380, 1420 and 1421 at the exit eye; AT_EXIT at its clearing edge; ADVANCE readings. -/
theorem test_meets_JournalFollowsEyesAndAdvance :
    armed.tables.line = some line ∧ line.entryEye = 0 ∧ line.exitEye = 1 ∧ line.advance = 2 ∧
    (let s := withRacks 2000 (List.replicate 31 (rack 19 .inLine)) false false armed
     s.journal.entryLast = false ∧ s.journal.racks.length < 32) ∧
    32 ≤ (withRacks 2000 (List.replicate 32 (rack 19 .inLine)) false false armed).journal.racks.length ∧
    (let s := withRacks 1060 [rack 17 .entering] true false armed
     s.journal.entryLast = true ∧ s.journal.overflow = false ∧ s.journal.racks = [] ++ [rack 17 .entering]) ∧
    (let s := armed.setJournal { armed.journal with overflow := true, entryLast := true }
     s.journal.entryLast = true ∧ s.journal.overflow = true) ∧
    (∀ r ∈ (withRacks 2000 [rack 16 .atExit] false false armed).journal.racks, r.state ≠ .inLine) ∧
    (let s := fun t => withRacks t [rack 16 .atExit, rack 17 .inLine] false false armed
     (s 0).journal.racks[1]? = some (rack 17 .inLine) ∧ (s 0).journal.exitLast = false ∧
     (rack 17 .inLine).position 2379 + line.exitTol < line.exitPos ∧
     line.exitPos ≤ (rack 17 .inLine).position 2380 + line.exitTol ∧
     (rack 17 .inLine).position 2420 ≤ line.exitPos + line.exitTol ∧
     line.exitPos + line.exitTol < (rack 17 .inLine).position 2421) ∧
    (let s := withRacks 2425 [rack 17 .atExit] false true armed
     s.journal.exitLast = true ∧ s.journal.racks[0]? = some (rack 17 .atExit)) ∧
    (let s := withRacks 1060 [rack 17 .inLine] true true armed
     s.journal.racks = [] ++ [rack 17 .inLine] ∧ (rack 17 .inLine).state ≠ .entering ∧
     (∀ r ∈ s.journal.racks, r.state ≠ .atExit) ∧ decide ((1 : Half) ≠ 0) = s.journal.exitLast) ∧
    (let s := withRacks 2165 [rack 16 .atExit, rack 17 .inLine] false false armed
     s.journal.racks[1]? = some (rack 17 .inLine) ∧
     (rack 17 .inLine).position (s.journal.travel + (255 : Half).setWidth 24) = 1420 ∧
     line.exitPos + line.exitTol < (rack 17 .inLine).position (2166 + (255 : Half).setWidth 24)) ∧
    255 < (256 : Half).toNat ∧ (255 : Half).toNat ≤ 255 ∧
    ((66535 : Travel) - (rack 17 .inLine).entryTravel).toNat = 65535 ∧
    65535 < ((66536 : Travel) - (rack 17 .inLine).entryTravel).toNat ∧
    ((rack 17 .inLine).ceil 66536).entryTravel = 1001 ∧
    (∀ r ∈ [rack 17 .inLine], r.state = .inLine → r.position (2165 + (255 : Half).setWidth 24) ≤ 1400 + 20) := by
  decide +kernel

/-- Rack 40 of section 2.8, rack 41's credit of 1980, a marked, a merged and a missed one. -/
theorem test_meets_DispositionOfARemovedRecord :
    let done := { rack 40 .atExit with credits := [⟨3, 0, 2880, false⟩, ⟨5, 2160, 0, false⟩] }
    let short := { rack 41 .atExit with credits := [⟨3, 0, 2880, false⟩, ⟨5, 1980, 0, true⟩] }
    { done with merged := true }.disposition tables false = .doubt ∧ done.disposition tables true = .doubt ∧
    { done with rerun := true }.disposition tables false = .rerun ∧ short.disposition tables false = .rerun ∧
    done.disposition tables false = .accept ∧ (withRacks 2425 [done] false true armed).journal.racks[0]? = some done ∧
    (withRacks 2425 [done] false true armed).tables = tables ∧ line.indicator = none ∧
    (let s := armed.setTables (lamp tables)
     (lamp tables).line = some { line with indicator := some 60 } ∧
     s.routeAt 60 = some (route 41 0 .indicator none 0 100) ∧ short.disposition s.tables false ≠ .accept ∧
     (s.setQueue (List.replicate 15 ⟨ctlFrame 63 Kind.phase 0 [3], .phase⟩)).arbiter.queue.length < 16) ∧
    16 ≤ full.arbiter.queue.length := by
  refine ⟨?_, ?_, ?_, ?_, ?_, ?_, rfl, ?_⟩ <;> decide +kernel

theorem test_meets_TankDeadlines :
    (1 : Nat) ≤ 1 ∧ (1 : Nat) ≤ 40 ∧ (40 : Nat) ≤ 40 ∧ (63 : Nat) ≤ 63 ∧ (3 : Nat) ≤ 3 ∧ (0 : Nat) = 0 ∧ (1 : Nat) ≠ 0 := by
  decide

theorem test_meets_ReadingUpdatesItsImageEntry : (0 : Nat) < 64 ∧ (63 : Nat) < 64 ∧ (0 : Nat) ≠ 63 := by decide

/-- A signature of each test at index 47, in ARMED and in WATCH; gates that hold and that do not; channel B fresh and not;
an anchor 99 and 100 units old under a window of 1 s. -/
theorem test_meets_SignaturesAreEvaluated :
    (∀ t ∈ [SigTest.above, .below, .equal, .diffAbove, .changeBelow, .stale, .bad],
      let s := withSig 47 (sig t 12 820 1 2 7) armed
      s.sigAt 47 = some (sig t 12 820 1 2 7) ∧ s.gatesHold (sig t 12 820 1 2 7) = true ∧ s.mgmt.engine = .armed ∧
      (s.runAt 47).count + 1 < 2 ∧ ((s.setRun 47 ⟨1, .hit, none⟩).runAt 47).count + 1 ≥ 2 ∧
      (s.runAt 47).anchor = none ∧ ((s.setRun 47 ⟨1, .hit, some (832, 0)⟩).runAt 47).anchor = some (832, 0)) ∧
    armed.gatesHold { sig .above 12 820 1 2 7 with gateCount := 1, gate1 := ⟨34, true⟩ } = false ∧
    (watching.mgmt.engine = .watch ∧ (watching.classAt 7).watch = false) ∧
    (let w := watching.setTables { tables with cls := tables.cls.set 7 ⟨true, true, 0⟩ }
     (w.classAt 7).watch = true) ∧
    (armed.imageAt 21).status ≠ .fresh ∧
    ((armed.modImage 21 fun _ => ⟨100, .fresh, some 0, some 0, false, 0⟩).imageAt 21).status = .fresh ∧
    ((99 : Clock) - 0).toNat < 1 * 100 ∧ 1 * 100 ≤ ((100 : Clock) - 0).toNat := by decide +kernel

theorem test_meets_ContainmentEngages :
    (let w := { watching with tables := { tables with cls := Vector.replicate 12 ⟨true, true, 0⟩ } }
     w.mgmt.engine = .watch ∧ (w.classAt 0).watch = true ∧ (w.classAt 2).watch = true ∧ w.contain.engaged = false ∧
     w.hasKind 34 .heater = true) ∧
    armed.mgmt.engine = .armed ∧ (0 : Nat) ≤ 2 ∧ (2 : Nat) ≤ 2 ∧ armed.contain.engaged = false ∧
    armed.hasKind 34 .heater = true ∧ armed.hasKind 33 .heater = false := by
  decide +kernel

theorem test_meets_RaisesAreTakenCountedOrDropped :
    machine.mgmt.engine = .config ∧ (machine.setEngine .checking).mgmt.engine = .checking ∧
    watching.mgmt.engine = .watch ∧ (watching.classAt 0).watch = false ∧ full.mgmt.engine = .armed ∧
    full.contain.engaged = true ∧ (full.latchAt 3).state = .failed ∧ (full.latchAt 11).state = .failed ∧
    (armed.latchAt 3).state = .clear ∧ (armed.latchAt 11).state = .clear ∧
    (let s := armed.setTables { tables with cls := tables.cls.set 11 ⟨false, false, 0⟩ }
     (s.classAt 11).enable = false ∧ (s.latchAt 11).state = .clear) ∧
    (∀ c ∈ [0, 2, 3, 11],
      let w := { watching with tables := { tables with cls := Vector.replicate 12 ⟨true, true, 0⟩ } }
      w.mgmt.engine = .watch ∧ (w.classAt c).watch = true ∧ (w.setContain ⟨true, none, 0⟩).contain.engaged = true) ∧
    (∀ st ∈ [LatchState.clear, .pending, .recovering, .resolved, .failed],
      ((armed.setLatch 11 ⟨st, 254, none, none⟩).latchAt 11).state = st) := by decide +kernel

/-- A level at step 10 and at step 11 of plan 0, its slot absent, and of each kind; a SET of the heater for a channel the
level owns, with room and without, and each of its refusals. -/
theorem test_meets_PlanStepsBegin :
    let s := armed.setLevels ([] ++ [level 10])
    s.planSlot 0 10 = none ∧ (level 10).cls < 12 ∧ (level 10).step + 1 < 12 ∧
    (∀ k ∈ [StepKind.capLine, .notify, .mark, .lockout, .check, .waitTime, .waitFor, .set],
      (withSlot 0 10 (slot k 34 0 0) s).planSlot 0 10 = some (slot k 34 0 0)) ∧
    (slot .lockout 0 1 0).value ≠ 0 ∧ s.arbiter.waiting = none ∧
    (∀ g, g < 48 → s.sigAt g = none) ∧ (slot .waitFor 12 820 1).timeout ≠ 0 ∧
    (let r := route 14 3 .heater (some 5) 0 100
     s.routeAt (slot .set 34 100 0).subject.toNat = some r ∧ s.gate.planMask.getLsbD r.group = false ∧
     ((s.setMasks 0 1).gate.planMask.getLsbD r.group = true) ∧ r.kind = .heater ∧ (slot .set 34 100 0).value ≠ 0 ∧
     full.contain.engaged = true ∧ s.contain.engaged = false ∧
     ((s.modGate 34 fun g => { g with owner := .level 0 }).gateAt 34) = { GateCell.reset with owner := .level 0 } ∧
     s.arbiter.queue.length < 16 ∧ 16 ≤ full.arbiter.queue.length) ∧
    (({ slot .set 34 100 0 with failTarget := some 11 } : PlanSlot).failTarget = some 11) ∧
    (∀ k ∈ [StepKind.holdLine, .runLine, .release, .releaseLine],
      (withSlot 0 10 (slot k 50 60 0) s).planSlot 0 10 = some (slot k 50 60 0)) ∧ s.conveyorRef = some 50 ∧
    (s.gateAt 50).owner ≠ .level 0 ∧ s.arbiter.room = [] ∧ s.arbiter.queue = [] := by decide +kernel

/-- A class 7 signature whose last outcome is MATCH for CHECK; a tank step with every ref and with the valve alone, open
and barred; a SET of the heater that meets both refusals. -/
theorem test_meets_PlanStepsBegin_branch :
    let s := armed.setLevels ([] ++ [level 10])
    let m := (withSig 47 (sig .bad 12 0 1 1 7) s).setRun 47 ⟨0, .hit, none⟩
    (∃ g e, g < 48 ∧ m.sigAt g = some e ∧ e.cls = 7 ∧ (m.runAt g).last = .hit) ∧
    (∀ z ∈ [tank, { tank with heater := none }, { tank with heater := none, inlet := none }],
      (withTank z s).zoneAt (slot .drain 6 0 0).subject.toNat = some z ∧ z.drain = some 46 ∧
      (withTank z s).routeAt 46 = some (route 13 5 .drain (some 6) 2 100) ∧
      (withTank z s).gate.planMask.getLsbD 2 = false ∧ ((withTank z s).setMasks 0 4).gate.planMask.getLsbD 2 = true) ∧
    ((s.setMasks 0 1).setContain ⟨true, none, 0⟩).contain.engaged = true := by
  refine ⟨⟨47, sig .bad 12 0 1 1 7, ?_⟩, ?_⟩ <;> decide +kernel

/-- What a plan order for a channel can find: a replay of it queued and waiting, its slot due and empty, its hand-back, its
gated order waiting for the N-side; lockout held and not, with each kind of waiting controller frame; a fail target of FAIL. -/
theorem test_meets_PlanStepsBegin_taken :
    let s := withSlot 0 10 (slot .set 34 100 0) (armed.setLevels ([] ++ [level 10]))
    let q : QFrame := ⟨{ ctlFrame 14 Kind.order 0 [3, 0, 80] with src := 62 }, .replay 34⟩
    (slot .set 34 100 0).failTarget = none ∧ (s.gateAt 34).owner ≠ .level 0 ∧
    ((s.setQueue [q]).arbiter.queue.any fun x => x.origin = .replay 34) = true ∧
    RoomEntry.replay 34 ∈ (s.setRoom [.handBack 34, .replay 34]).arbiter.room ∧
    ((s.modGate 34 fun g => { g with held := .replayDue 80 }).gateAt 34).held = .replayDue 80 ∧
    (s.gateAt 34).held = .empty ∧
    (∀ k ∈ [CtlKind.transparent, .order 34 0, .poll 12, .poll 34, .protectedPoll 34 (pollFrame 14 3 0)],
      (s.setWaiting (some ⟨orderFrame 14 3 80 7, k⟩)).arbiter.waiting = some ⟨orderFrame 14 3 80 7, k⟩) ∧
    (orderFrame 14 3 80 7).orderValue = 80 ∧ s.levels.any (·.lockout) = false ∧
    (s.setLevels [{ level 10 with lockout := true }]).levels.any (·.lockout) = true ∧
    s.routeAt 12 = some (route 14 2 .temp (some 5) 0 0) ∧ (s.imageAt 12).status = .never := by decide +kernel

theorem test_meets_EvaluationStartsTheFirstEligible :
    let s := armed.setLatch 11 { Latch.reset with state := .pending, count := 1 }
    s.mgmt.engine = .armed ∧ s.levels = [] ∧ (s.latchAt 11).state = .pending ∧ (s.classAt 11).enable = true ∧
    (∀ b, b < 11 → ¬ ((s.latchAt b).state = .pending ∧ (s.classAt b).enable = true)) ∧
    (withSelect 11 23 s).selectCell 11 (withSelect 11 23 s).ports.phase = some 23 ∧
    s.selectCell 11 s.ports.phase = none ∧
    (let u := (armed.setLatch 6 { Latch.reset with state := .pending, count := 1 }).setLevels ([] ++ [level 3])
     let e : RoomEntry := .plan 0 3 34 100
     (u.latchAt 6).state = .pending ∧ (u.classAt 6).enable = true ∧ 6 < (level 3).cls ∧ u.levels.length < 3 ∧
     (∀ b, b < 6 → ¬ ((u.latchAt b).state = .pending ∧ (u.classAt b).enable = true)) ∧
     (withSelect 6 0 u).selectCell 6 u.ports.phase = some 0 ∧ (u.setRoom [e, .replay 50]).arbiter.room = [e, .replay 50] ∧
     (level 3).cls ≤ 7 ∧ 3 ≤ full.levels.length) ∧
    (∀ b, b < 12 → ¬ ((armed.latchAt b).state = .pending ∧ (armed.classAt b).enable = true)) := by decide +kernel

/-- A level at depth 1 of each wait and phase; the reading that ends a WAIT_FOR, at its limit and beside it; the level
channel of a tank at its empty and operating level; step 11 of a NOTIFY; a heater channel of the level that a lower level
lists, and that none lists, held and not. -/
theorem test_meets_PlanWaitsAndLevelsEnd :
    let l : Level := { level 10 with wait := .ack, touched := [(34, 100)] }
    let s := fun (sl : PlanSlot) (l : Level) => withTank tank (withSlot 0 l.step sl (armed.setLevels ([level 2] ++ [l])))
    (∀ k ∈ [StepKind.set, .holdLine, .runLine, .drain, .refill, .waitFor, .endOk, .endFail, .check],
      (s (slot k 6 60 0) l).levels = [level 2] ++ [l] ∧
      (s (slot k 6 60 0) l).planSlot l.plan l.step = some (slot k 6 60 0) ∧
      (s (slot k 6 60 0) l).arbiter.room = [] ∧ (s (slot k 6 60 0) l).conveyorRef = some 50 ∧
      (s (slot k 6 60 0) l).zoneAt (slot k 6 60 0).subject.toNat = some tank) ∧
    l.step + 1 < 12 ∧ ({ slot .set 34 0 0 with failTarget := some 11 } : PlanSlot).failTarget = some 11 ∧
    (slot .drain 6 60 0).failTarget = none ∧ ({ l with tankPhase := 5 } : Level).tankPhase = 5 ∧ tank.drain = some 46 ∧
    ((slot .waitFor 12 820 0).subject &&& 0x3F).toNat = 12 ∧ ((slot .waitFor 0x8C 820 0).subject >>> 6).toNat = 2 ∧
    (820 : Half).toNat < (821 : Half).toNat ∧ tank.level = some 44 ∧ (40 : Half).toNat ≤ tank.emptyLevel ∧
    tank.operLevel ≤ (520 : Half).toNat ∧
    (s (slot .notify 1 2 0) { level 11 with wait := .none }).planSlot 0 11 = some (slot .notify 1 2 0) ∧
    (let u := (s (slot .endOk 0 0 0) l).modGate 34 fun g => { g with owner := .level 1, held := .held 80 }
     u.routeAt 34 = some (route 14 3 .heater (some 5) 0 100) ∧ (u.gateAt 34).owner = .level 1 ∧
     (u.gateAt 34).held = .held 80 ∧ touchedValue 34 (level 2).touched = none ∧
     touchedValue 34 ({ level 2 with touched := [(34, 60)] } : Level).touched = some 60 ∧
     u.gate.ctlMask.getLsbD 0 = false ∧ (u.setMasks 1 0).gate.ctlMask.getLsbD 0 = true ∧
     u.arbiter.queue.length < 16 ∧ u.arbiter.queue = []) := by decide +kernel

/-- A keep-fresh transaction is open for these witnesses of the N-side. -/
def polling (begun : Bool) : State := withTrans (pollFrame 14 2 7) (.keepFresh 12) true begun armed

theorem test_meets_StrayAndMalformedFramesSetTheirFlag :
    parseFrame [] = none ∧ armed.ports.trans = none ∧ (reading 9 0 1 62 7).malformed = false ∧
    (polling true).ports.trans.isSome = true ∧
    (∀ t ∈ (polling true).ports.trans, t.expired = false ∧ t.isReply (reading 9 0 1 62 7) = false) := by decide +kernel

/-- An open transaction; another source, the addresses 0 and 61, a broadcast that is no PHASE, a PHASE to a node. -/
theorem test_meets_FramesThatAreNotAccepted :
    Instr.controllerFrame (.controllerPoll 14 2 3) = some (pollFrame 14 2 3) ∧ (pollFrame 14 2 3).malformed = false ∧
    (armed.setCPort .waiting).ports.cport ≠ .idle ∧ armed.ports.cport = .idle ∧
    (∀ f ∈ [{ pollFrame 14 2 3 with src := 60 }, ctlFrame 0 9 0 [], ctlFrame 61 9 0 [], ctlFrame 63 9 0 [],
        ctlFrame 14 Kind.phase 0 [3], ctlFrame 62 Kind.phase 0 [3]],
      Instr.controllerFrame (.cFrameDiscard f) = some f ∧ f.malformed = false ∧
      (f.src ≠ 61 ∨ f.dst = 0 ∨ f.dst = 61 ∨ (f.dst = 63 ∧ f.kind ≠ Kind.phase) ∨
        (f.dst ≠ 63 ∧ f.kind = Kind.phase))) := by decide +kernel

/-- The conveyor's channel in CONFIG and in ARMED: protected and locked, protected, locked, owned by a level, free. -/
theorem test_meets_GatedOrdersAreDecided :
    let r := route 40 0 .conveyor none 1 90
    let locked := armed.setLevels [{ level 0 with lockout := true }]
    machine.ports.cport = .idle ∧ isNode 40 = true ∧ isNode 1 = true ∧ isNode 60 = true ∧
    machine.mgmt.engine = .config ∧ machine.findRoute 40 0 = some (50, r) ∧ r.kind.isActuator = true ∧
    (∀ w, (machine.gateAt 50).held ≠ .replayDue w) ∧
    armed.ports.cport = .idle ∧ armed.mgmt.engine = .armed ∧ armed.findRoute 40 0 = some (50, r) ∧
    (armed.setMasks 2 0).gate.ctlMask.getLsbD r.group = true ∧ armed.gate.ctlMask.getLsbD r.group = false ∧
    locked.levels.any (·.lockout) = true ∧ armed.levels.any (·.lockout) = false ∧
    ((armed.modGate 50 fun g => { g with owner := .retained }).gateAt 50).owner ≠ .controller ∧
    (armed.gateAt 50).owner = .controller ∧ (∀ w, (armed.gateAt 50).held ≠ .replayDue w) ∧
    (armed.setLevels [{ level 0 with cap := some 50 }]).capInForce = some 50 ∧ armed.conveyorRef = some 50 ∧
    (watching.mgmt.engine = .watch ∧ watching.time.wakeOnTraffic = false) ∧ armed.arbiter.queue = [] ∧
    armed.arbiter.room = [] := by
  have a := not_due (show (machine.gateAt 50).held = .empty by decide +kernel)
  have b := not_due (show (armed.gateAt 50).held = .empty by decide +kernel)
  refine ⟨?_, ?_, ?_, ?_, ?_, ?_, ?_, a, ?_, ?_, ?_, ?_, ?_, ?_, ?_, ?_, ?_, b, ?_, ?_, ?_, ?_, ?_⟩ <;> decide +kernel

theorem test_meets_LetThroughSupersedesTheReplay :
    let s := armed.modGate 50 fun g => { g with held := .replayDue 80 }
    s.ports.cport = .idle ∧ isNode 40 = true ∧ s.mgmt.engine = .armed ∧
    s.findRoute 40 0 = some (50, route 40 0 .conveyor none 1 90) ∧ RouteKind.conveyor.isActuator = true ∧
    s.gate.ctlMask.getLsbD 1 = false ∧ s.levels.any (·.lockout) = false ∧ (s.gateAt 50).owner = .controller ∧
    (s.gateAt 50).held = .replayDue 80 ∧ watching.time.wakeOnTraffic = false ∧ machine.mgmt.engine = .config ∧
    (s.setRoom [.replay 50]).arbiter.room = [.replay 50] ∧
    (let q : QFrame := ⟨{ ctlFrame 40 Kind.order 0 [0, 0, 80] with src := 62 }, .replay 50⟩
     (machine.setQueue [q]).arbiter.queue = [q] ∧ (machine.gateAt 50).held = .empty) := by decide +kernel

theorem test_meets_RoutedPollWaitsOrIsAnswered :
    let locked := armed.setLevels [{ level 0 with lockout := true }]
    armed.ports.cport = .idle ∧ isNode 14 = true ∧
    armed.findRoute 14 2 = some (12, route 14 2 .temp (some 5) 0 0) ∧
    armed.findRoute 40 0 = some (50, route 40 0 .conveyor none 1 90) ∧ armed.levels.any (·.lockout) = false ∧
    locked.levels.any (·.lockout) = true ∧ RouteKind.temp.isSensor = true ∧ RouteKind.conveyor.isSensor = false ∧
    (∀ st ∈ [ImageStatus.never, .fresh, .stale, .bad],
      ((locked.modImage 12 fun c => { c with status := st }).imageAt 12).status = st) := by decide +kernel

/-- A frame of another kind; an ORDER of LEN 2, for a sensor, for no route; a POLL of LEN 2 and of no route. -/
theorem test_meets_TransparentFrameWaits :
    let order := fun (chan : Byte) => ctlFrame 14 Kind.order 7 [chan, 0, 1]
    (∀ f ∈ [ctlFrame 14 9 7 [], ctlFrame 14 Kind.order 7 [3, 0], order 2, order 9, ctlFrame 14 Kind.poll 7 [2, 0],
        ctlFrame 60 Kind.poll 7 [2]],
      armed.ports.cport = .idle ∧ f.malformed = false ∧ f.src = 61 ∧ isNode f.dst = true ∧ f.kind ≠ Kind.phase ∧
      (f.kind = Kind.order → armed.mgmt.engine ≠ .watch ∧
        (f.payload.length ≠ 3 ∨ (armed.findRoute f.dst f.chan).all (·.2.kind.isSensor) = true)) ∧
      (f.kind = Kind.poll → f.payload.length ≠ 1 ∨ armed.findRoute f.dst f.chan = none)) := by decide +kernel

theorem test_meets_TrafficEndsWatch :
    let s := watching.setTraffic true
    s.ports.cport = .idle ∧ s.mgmt.engine = .watch ∧ s.time.wakeOnTraffic = true ∧ isNode 40 = true ∧
    s.arbiter.waiting = none ∧ s.time.silence = none ∧
    (let f := ctlFrame 60 Kind.order 7 []
     f.malformed = false ∧ f.src = 61 ∧ isNode f.dst = true ∧ f.kind = Kind.order) := by decide +kernel

/-- Every phase code, code 6, no payload and 16 bytes of it; a full queue. -/
theorem test_meets_PhaseIsTrackedAndForwarded :
    armed.ports.cport = .idle ∧ Phase.ofCode (0 : Byte).toNat = some .standby ∧
    Phase.ofCode (5 : Byte).toNat = some .empty ∧ Phase.ofCode (6 : Byte).toNat = none ∧
    armed.arbiter.queue.length < 16 ∧ ¬ full.arbiter.queue.length < 16 ∧ (List.replicate 16 (0 : Byte)).length ≤ 16 ∧
    (∀ p ph, ([] : List Byte) = [p] → Phase.ofCode p.toNat ≠ some ph) := by
  refine ⟨?_, ?_, ?_, ?_, ?_, ?_, ?_, nofun⟩ <;> decide +kernel

theorem test_meets_PrefixAndUnknownFramesAreAnswered :
    machine.ports.cport = .idle ∧ (List.replicate 16 (0 : Byte)).length ≤ 16 ∧ (0 : BitVec 4) ≠ Kind.phase ∧
    (15 : BitVec 4) ≠ Kind.prefixKind ∧ (15 : BitVec 4) ≠ Kind.mgmtReq ∧
    Request.ofCode (0 : Byte).toNat = none ∧ Request.ofCode (0x0A : Byte).toNat = none ∧
    Request.ofCode (0x1A : Byte).toNat = none := by decide

/-- A guarded request without a prefix, one in CHECKING, and requests with one argument byte too few. -/
theorem test_meets_RequestsAreTestedInOrder :
    (Instr.arm 1 []).request = some (.arm, 1, []) ∧ Request.arm.guarded = true ∧ machine.mgmt.prefixArmed = false ∧
    machine.ports.cport = .idle ∧ (prefixed (machine.setEngine .checking)).mgmt.prefixArmed = true ∧
    (prefixed (machine.setEngine .checking)).mgmt.engine = .checking ∧
    (Instr.maskSet 1 [3]).request = some (.maskSet, 1, [3]) ∧ (prefixed machine).mgmt.engine ≠ .checking ∧
    [(3 : Byte)].length < Request.maskSet.minArgs [3] ∧ [0x80, (0 : Byte)].length < Request.tableRead.minArgs [0x80, 0] ∧
    ¬ [0x80, (0 : Byte), 0].length < Request.tableRead.minArgs [0x80, 0, 0] := by decide +kernel

theorem test_meets_StatusAndNoticeFetch :
    armed.Reaches .status [] ∧ armed.Reaches .noticeFetch (List.replicate 15 0) ∧ armed.notices = [] ∧
    full.notices = ⟨.wake, 0, 0, 0, 0, false⟩ :: List.replicate 15 ⟨.wake, 0, 0, 0, 0, false⟩ ∧
    full.notices = List.replicate 15 ⟨.wake, 0, 0, 0, 0, false⟩ ++ [⟨.wake, 0, 0, 0, 0, false⟩] ∧
    full.Reaches .noticeFetch [] :=
  ⟨reaches (by decide +kernel), reaches (by decide +kernel), rfl, rfl, rfl, reaches (by decide +kernel)⟩

theorem test_meets_RackReadNamesARecord :
    let s := withRacks 1225 [rack 16 .atExit, rack 17 .inLine] false false armed
    s.ports.cport = .idle ∧ s.journal.racks[(half 0 1).toNat]? = some (rack 17 .inLine) ∧ (5 : Byte).toNat ≤ 5 ∧
    s.journal.racks[(half 0 2).toNat]? = none ∧ (rack 17 .inLine).tag.toNat = (half 0 17).toNat ∧
    (rack 16 .atExit).tag ≠ (rack 17 .inLine).tag ∧ (∀ r ∈ s.journal.racks, r.tag.toNat ≠ (half 0 18).toNat) ∧
    (rack 17 .inLine).centre s.journal.travel ≤ 32767 ∧ 5 < (6 : Byte).toNat ∧ 1 < (2 : Byte).toNat ∧
    armed.journal.racks = [] ∧ s.journal.racks ≠ [] := by
  decide +kernel

theorem test_meets_LatchAndChannelReads :
    armed.ports.cport = .idle ∧ (11 : Byte).toNat < 12 ∧ (armed.classAt 11).enable = true ∧
    ((armed.setTables { tables with cls := tables.cls.set 11 ⟨false, false, 0⟩ }).classAt 11).enable = false ∧
    12 ≤ (12 : Byte).toNat ∧ armed.routeAt (50 : Byte).toNat = some (route 40 0 .conveyor none 1 90) ∧
    armed.routeAt (63 : Byte).toNat = none ∧ armed.routeAt (255 : Byte).toNat = none ∧
    RouteKind.conveyor.isSensor = false ∧ armed.routeAt (12 : Byte).toNat = some (route 14 2 .temp (some 5) 0 0) ∧
    RouteKind.temp.isSensor = true ∧ (armed.imageAt 12).status = .never ∧
    (∀ st ∈ [ImageStatus.fresh, .stale, .bad],
      let c := (armed.modImage 12 fun _ => ⟨832, st, some 7, some 7, true, 0⟩).imageAt 12
      c.status = st ∧ c.lastReading = some 7) := by decide +kernel

theorem test_meets_TableReadReturnsEntries :
    armed.ports.cport = .idle ∧ armed.routeAt (50 : Byte).toNat = some (route 40 0 .conveyor none 1 90) ∧
    armed.routeAt (63 : Byte).toNat = none ∧ 64 ≤ (64 : Byte).toNat ∧
    armed.zoneAt (5 : Byte).toNat = some (zone .finalRinse 1100 1220 (some 12) none 2000 0) ∧
    (withSig 47 (sig .bad 12 0 1 1 7) armed).sigAt (47 : Byte).toNat = some (sig .bad 12 0 1 1 7) ∧
    armed.sigAt (47 : Byte).toNat = none ∧ armed.tables.line = some line ∧ State.reset.tables.line = none ∧
    (7 : Byte).toNat < 8 ∧ 8 ≤ (8 : Byte).toNat ∧ armed.zoneAt (7 : Byte).toNat = none ∧
    armed.curveAt (7 : Byte).toNat = none ∧ armed.curveAt (4 : Byte).toNat = some rinseCurve ∧ 48 ≤ (48 : Byte).toNat ∧
    (11 : Byte).toNat < 12 ∧ (withSelect 11 23 armed).tables.select[(11 : Byte).toNat]? =
      some (some ⟨some 23, some 23, some 23, some 23, some 23, some 23⟩) ∧
    armed.tables.select[(11 : Byte).toNat]? = some none ∧ 12 ≤ (12 : Byte).toNat ∧
    (withSlot 23 11 (slot .waitTime 0 0 600) armed).planSlot (23 : Byte).toNat (11 : Byte).toNat =
      some (slot .waitTime 0 0 600) ∧
    armed.planSlot (23 : Byte).toNat (11 : Byte).toNat = none ∧ 24 ≤ (24 : Byte).toNat := by decide +kernel

theorem test_meets_LevelReadShowsALevel :
    let s := armed.setLevels [level 3]
    s.ports.cport = .idle ∧ s.levels[(1 : Byte).toNat]? = none ∧ s.levels[(0 : Byte).toNat]? = some (level 3) ∧
    11 < (12 : Byte).toNat ∧ (level 3).deadline = none ∧ 1 ≤ (1 : Byte).toNat ∧ (11 : Byte).toNat ≤ 11 ∧
    ((600 : Clock) - 600).toNat < 2 ^ 31 ∧ 2 ^ 31 ≤ ((590 : Clock) - 600).toNat ∧ ((600 : Clock) - 590).toNat % 10 = 0 ∧
    ({ level 3 with deadline := some 600 } : Level).deadline = some 600 := by
  decide +kernel

theorem test_meets_SequenceLockHolds :
    armed.Reaches .seqLock [] ∧ armed.Reaches .seqUnlock [] ∧
    (let s := armed.setLock (some 150)
     s.gate.lock = some 150 ∧ ((150 : Clock) - 150).toNat < 2 ^ 31 ∧ 2 ^ 31 ≤ ((149 : Clock) - 150).toNat) ∧
    armed.gate.lock = none :=
  ⟨reaches (by decide +kernel), reaches (by decide +kernel), by decide +kernel, by decide +kernel⟩

/-- In CONFIG with a prefix every table's SINGLE part reaches its own rule, at its last index; entries that are accepted,
refused and held elsewhere; ARMED and WATCH for NOT_LIVE. -/
theorem test_meets_SinglePartsAreCommitted :
    (∀ tb ∈ [(0x10 : Byte), 0x20, 0x30, 0x33, 0x40, 0x48, 0x50, 0x54, 0x60, 0x70, 0x80, 0x90, 0x00], ∀ n ∈ [1, 6, 8, 9, 12, 13], ∀ s ∈ [machine, armed, watching],
      (prefixed s).Reaches .tableWrite (tb :: 7 :: List.replicate n 0)) ∧
    machine.mgmt.engine = .config ∧ armed.mgmt.engine = .armed ∧ watching.mgmt.engine = .watch ∧
    (parseLine [20, 5, 0, 1, 2, 50, 255, 5, 120, 20, 120, 10] = some line ∧ parseLine (List.replicate 12 0) = none) ∧
    (parseRoute (List.replicate 9 0) = none ∧
      parseRoute [40, 0, 13, 255, 1, 10, 30, 0, 90] = some (route 40 0 .conveyor none 1 90) ∧
      (machine.routeAt 50 = some (route 40 0 .conveyor none 1 90)) ∧
      (∀ j, j < 64 → j ≠ 50 → (machine.routeAt j).all (fun e => !(e.node = 40 && e.chan = 0)) = true)) ∧
    ((parseCurveSingle [2, 0, 0, 255, 5, 220, 0, 0, 0, 0, 0, 0, 0]).isSome = true ∧
      parseCurveSingle (List.replicate 13 0) = none) ∧
    (parseSignature [1, 12, 255, 3, 52, 0, 1, 0, 0, 0, 2, 7, 255] = some (sig .above 12 820 1 2 7) ∧
      parseSignature (List.replicate 13 0) = none) ∧
    (let pending : Latch := ⟨.pending, 1, some ⟨.track, none, 3, 0⟩, none⟩
     let off := (machine.setTables { tables with cls := tables.cls.set 11 ⟨false, false, 0⟩ }).setLatch 11 pending
     (machine.classAt 11).enable = true ∧ (off.classAt 11).enable = false ∧ (off.latchAt 11).state = .pending ∧
     (off.latchAt 11).firstCause = some ⟨.track, none, 3, 0⟩ ∧ (1 : Byte).getLsbD 0 = true ∧ (2 : Byte).getLsbD 0 = false) ∧
    parseSelect [24, 0, 0, 0, 0, 0] = none ∧ parsePlanSlot [11, 17, 0, 0, 0, 0, 0, 255] = none ∧
    (0x0F : Byte).toNat / 16 = 0 ∧ 9 ≤ (0x90 : Byte).toNat / 16 ∧ (0x60 : Byte).toNat / 16 = 6 ∧ 12 ≤ (12 : Byte).toNat ∧
    4 ≤ (0x64 : Byte).toNat % 16 ∧ ((0x61 : Byte).toNat % 4, 1) ∉ [(0, 1)] ∧ ((0x60 : Byte).toNat % 4, 2) ∉ [(0, 1)] ∧
    (machine.latchAt 11).state ≠ .pending ∧ (parseSelect [0, 23, 255, 1, 2, 3]).isSome = true ∧
    parsePlanSlot [11, 8, 0, 0, 0, 2, 88, 255] = some (slot .waitTime 0 0 600) := by
  refine ⟨?_, ?_⟩
  · intro tb htb n hn s hs
    refine ⟨?_, ?_, ?_, fun _ => rfl, ?_⟩
    · simp only [List.mem_cons, List.not_mem_nil, or_false] at hs
      obtain rfl | rfl | rfl := hs <;> rfl
    · simp only [List.mem_cons, List.not_mem_nil, or_false] at hn
      obtain rfl | rfl | rfl | rfl | rfl | rfl := hn <;> simp
    · simp [Request.minArgs]
    · simp only [List.mem_cons, List.not_mem_nil, or_false] at hs
      obtain rfl | rfl | rfl := hs <;> decide
  · decide +kernel

theorem test_meets_TwoPartEntriesAreStaged :
    let z₁ : List Byte := [3, 1, 144, 2, 188, 255, 21, 4, 0, 0, 2, 5, 220]
    let z₂ : List Byte := [255, 255, 255, 255, 255, 18, 0x86, 0x49, 0, 40, 2, 8]
    let s := fun (b : Staged) => prefixed (machine.setStaging (some b))
    (prefixed machine).Reaches .tableWrite (0x31 :: 7 :: z₁) ∧ (prefixed armed).Reaches .tableWrite (0x41 :: 7 :: z₁) ∧
    (prefixed machine).Reaches .tableWrite (0x32 :: 7 :: z₂) ∧ (prefixed machine).Reaches .tableWrite (0x42 :: 7 :: z₂) ∧
    z₁.length = 13 ∧ z₂.length = 12 ∧ (prefixed machine).mgmt.staging = none ∧
    (s ⟨.curve, 7, z₁⟩).mgmt.staging = some ⟨.curve, 7, z₁⟩ ∧ (s ⟨.zone, 6, z₁⟩).mgmt.staging = some ⟨.zone, 6, z₁⟩ ∧
    (parseZone z₁ z₂).isSome = true ∧ parseZone (List.replicate 13 255) z₂ = none ∧
    (parseCurveJoined [5, 3, 12, 0, 3, 32, 4, 3, 52, 10, 3, 82, 24] [3, 112, 40, 0, 0, 0, 0, 0, 0, 0, 0, 0]) =
      some rinseCurve := by
  refine ⟨reaches ?_, reaches ?_, reaches ?_, reaches ?_, ?_⟩ <;> decide +kernel

theorem test_meets_ArmAndCheckCompletion :
    (prefixed machine).Reaches .arm [] ∧ (prefixed armed).Reaches .arm [] ∧ machine.mgmt.engine = .config ∧
    armed.mgmt.engine ≠ .config ∧
    (let s := (machine.setEngine .checking).setCheck (some 0)
     s.mgmt.engine = .checking ∧ s.mgmt.checkBegan ≠ none ∧ s.tables.check = none) ∧
    State.reset.tables.check = some { table := 1, index := 0, sub := 0, reason := .lineUnwritten } := by
  refine ⟨reaches ?_, reaches ?_, ?_⟩ <;> decide +kernel

theorem test_meets_DisarmParkAndWake :
    let owned := armed.modGate 63 fun g => { g with owner := .retained }
    (prefixed machine).Reaches .disarm [] ∧ (prefixed armed).Reaches .disarm [] ∧ (prefixed armed).Reaches .park [1] ∧
    (prefixed machine).Reaches .park [0] ∧ (prefixed watching).Reaches .wake [] ∧ (prefixed armed).Reaches .wake [] ∧
    (∃ i, i < 64 ∧ (owned.gateAt i).owner = .retained) ∧ full.levels ≠ [] ∧ full.journal.racks ≠ [] ∧
    armed.levels = [] ∧ armed.journal.racks = [] ∧ (∀ i, i < 64 → (armed.gateAt i).owner ≠ .retained) ∧
    armed.tables.line = some line ∧ watching.mgmt.engine = .watch ∧ machine.mgmt.engine ≠ .armed := by
  refine ⟨reaches ?_, reaches ?_, reaches ?_, reaches ?_, reaches ?_, reaches ?_, ⟨63, ?_⟩, ?_⟩ <;> decide +kernel

theorem test_meets_FaultContainClearAndMaskSet :
    let s := armed.setContain ⟨true, some ⟨1, none⟩, 2⟩
    (prefixed armed).mgmt.engine ≠ .checking ∧ (prefixed armed).ports.cport = .idle ∧
    (prefixed armed).mgmt.prefixArmed = true ∧ 12 ≤ (12 : Byte).toNat ∧ (11 : Byte).toNat < 12 ∧
    (full.latchAt 11).state = .failed ∧ (armed.latchAt 11).state ≠ .resolved ∧ (armed.latchAt 11).state ≠ .failed ∧
    (prefixed armed).Reaches .containClear [] ∧ (prefixed s).Reaches .containClear [] ∧ armed.contain.engaged = false ∧
    s.contain.engaged = true ∧
    (∃ g e, g < 48 ∧ (withSig 47 (sig .bad 12 0 1 1 2) s).sigAt g = some e ∧ e.cls ≤ 2 ∧
      (((withSig 47 (sig .bad 12 0 1 1 2) s).setRun 47 ⟨0, .hit, none⟩).runAt g).last = .hit) ∧
    (∀ g, g < 48 → s.sigAt g = none) := by
  refine ⟨?_, ?_, ?_, ?_, ?_, ?_, ?_, ?_, reaches ?_, reaches ?_, ?_, ?_, ⟨47, sig .bad 12 0 1 1 2, ?_⟩, ?_⟩ <;>
    decide +kernel

theorem test_meets_RetainReleaseFreesEveryChannel :
    let s := prefixed (armed.modGate 50 fun g => { g with owner := .retained, held := .held 80 })
    s.Reaches .retainRelease [] ∧ s.routeAt 50 = some (route 40 0 .conveyor none 1 90) ∧
    (s.gateAt 50).owner = .retained ∧ (s.gateAt 50).held = .held 80 ∧ s.gate.ctlMask.getLsbD 1 = false ∧
    (s.gateAt 34).owner ≠ .retained := by
  refine ⟨reaches ?_, ?_⟩ <;> decide +kernel

/-- In every engine state, CHECKING too. -/
theorem test_meets_SoftResetKeepsAndDiscards :
    (prefixed machine).Reaches .softReset [] ∧ (prefixed (machine.setEngine .checking)).Reaches .softReset [] ∧
    (prefixed full).Reaches .softReset [] ∧ (prefixed watching).Reaches .softReset [] := by
  refine ⟨reaches ?_, reaches ?_, reaches ?_, reaches ?_⟩ <;> decide +kernel

theorem test_meets_EndsOfSendingAndArrival :
    let s := armed.setCPort (.replying (ack 1 0 0 61 0))
    s.ports.cport = .replying (ack 1 0 0 61 0) ∧ (s.setEngine .checking).mgmt.engine = .checking ∧
    (s.setEngine .checking).mgmt.checkBegan = none ∧ s.mgmt.engine ≠ .checking ∧ armed.ports.cport = .idle ∧
    (armed.setSending (some (pollFrame 14 2 7))).ports.sending = some (pollFrame 14 2 7) ∧
    (polling false).ports.trans.isSome = true ∧ armed.ports.trans = none ∧ armed.ports.sending = none := by decide +kernel

/-- A transaction of each origin, with a reading for its POLL and a DONE or REFUSED ACK for its ORDER; the clock at a keep-fresh
poll of a sensor; a replay due and not; containment engaged and not. -/
theorem test_meets_NodeRepliesEndTheTransaction :
    let poll := pollFrame 14 2 7
    let order := orderFrame 40 0 90 7
    let open_ := fun (q : Sys2Proof.Frame) (o : Origin) => (⟨q, o, 20, true, true, false⟩ : NodeTrans)
    let refused := { ack 40 0 90 61 7 with payload := [0, 1, 0, 90] }
    (∀ o ∈ [Origin.controller ⟨poll, .transparent⟩, .controller ⟨poll, .poll 12⟩,
        .controller ⟨orderFrame 14 2 9 7, .protectedPoll 12 poll⟩, .keepFresh 12, .watch 12],
      (armed.setTrans (some (open_ poll o))).ports.trans = some (open_ poll o) ∧
      (open_ poll o).isReply (reading 14 2 832 61 7) = true) ∧
    (∀ o ∈ [Origin.controller ⟨order, .order 50 90⟩, .planOrphan 50, .handBack 50, .indicator 50, .plan 0 0 50,
        .replay 50, .forceOff 50],
      (open_ order o).isReply (ack 40 0 90 61 7) = true ∧ (open_ order o).isReply refused = true) ∧
    (reading 14 2 832 61 7).malformed = false ∧ refused.malformed = false ∧ refused.kind = Kind.ack ∧
    ¬ refused.payload.getD 1 0 = 0 ∧ (ack 40 0 90 61 7).payload.getD 1 0 = 0 ∧
    ((armed.modGate 50 fun g => { g with held := .replayDue 80 }).gateAt 50).held = .replayDue 80 ∧
    (∀ v, (armed.gateAt 50).held ≠ .replayDue v) ∧ armed.contain.engaged = false ∧ full.contain.engaged = true := by
  have h := not_due (show (armed.gateAt 50).held = .empty by decide +kernel)
  refine ⟨?_, ?_, ?_, ?_, ?_, ?_, ?_, ?_, h, ?_, ?_⟩ <;> decide +kernel

/-- No transaction; one whose request has not gone, one with a frame begun, one with none; every origin; the third miss; a
plan order whose level the raise keeps; late frames that are the reply, another and malformed. -/
theorem test_meets_TimeoutMissesOrWaits :
    let poll := pollFrame 14 2 7
    let order := orderFrame 40 0 90 7
    let c : CtlFrame := ⟨poll, .poll 12⟩
    armed.ports.trans = none ∧
    (∀ o ∈ [Origin.controller c, .controller ⟨poll, .transparent⟩, .keepFresh 12, .watch 12],
      ∀ timing ∈ [true, false], ∀ begun ∈ [true, false],
        (withTrans poll o timing begun armed).ports.trans = some ⟨poll, o, 20, timing, begun, false⟩) ∧
    (∀ o ∈ [Origin.controller ⟨order, .transparent⟩, .controller ⟨order, .order 50 90⟩,
        .controller ⟨order, .protectedPoll 50 { pollFrame 40 0 0 with src := 62 }⟩, .plan 0 0 50, .planOrphan 50,
        .handBack 50, .indicator 50, .replay 50, .forceOff 50],
      (withTrans order o true false armed).ports.trans = some ⟨order, o, 20, true, false, false⟩) ∧
    c.req.isPoll = true ∧ order.isPoll = false ∧ armed.missesAt 14 ≠ 2 ∧ (armed.setMisses 14 2).missesAt 14 = 2 ∧
    armed.findRoute poll.dst poll.chan = some (12, route 14 2 .temp (some 5) 0 0) ∧ RouteKind.temp.isSensor = true ∧
    (let t : NodeTrans := ⟨poll, .controller c, 20, true, false, false⟩
     t.isReply (reading 14 2 832 61 7) = true ∧ t.isReply (reading 14 2 832 61 8) = false ∧
     (reading 14 2 832 61 7).malformed = false ∧ { reading 14 2 832 61 7 with payload := List.replicate 17 0 }.malformed = true) ∧
    (∀ v, (armed.gateAt 50).held ≠ .replayDue v) ∧ armed.contain.engaged = false := by
  have h := not_due (show (armed.gateAt 50).held = .empty by decide +kernel)
  refine ⟨?_, ?_, ?_, ?_, ?_, ?_, ?_, ?_, ?_, ?_, h, ?_⟩ <;> decide +kernel

/-- A busy N-side; a force-off due; a lock with nothing waiting; a controller frame; a PHASE under lockout; a room list
with a full queue and without. -/
theorem test_meets_ArbiterChoosesAndRoomListFills :
    let off := armed.modGate 34 fun g => { g with forceOffDue := true }
    let waits := armed.setWaiting (some ⟨ctlFrame 14 9 7 [1], .transparent⟩)
    let p : QFrame := ⟨ctlFrame 63 Kind.phase 0 [3], .phase⟩
    (∀ c, Origin.keepFresh 12 ≠ .controller c) ∧ (∀ c, Origin.plan 0 0 34 ≠ .controller c) ∧
    Origin.keepFresh 12 ≠ .phase ∧ (armed.setQueue [⟨pollFrame 14 2 0, .keepFresh 12⟩]).arbiter.queue =
      ⟨pollFrame 14 2 0, .keepFresh 12⟩ :: [] ∧
    (polling true).ports.trans.isSome = true ∧ armed.ports.trans = none ∧ armed.ports.sending = none ∧
    off.routeAt 34 = some (route 14 3 .heater (some 5) 0 100) ∧ (off.gateAt 34).forceOffDue = true ∧
    (off.gateAt 34).deferred = false ∧
    (∀ j, j < 34 → ¬ ((off.gateAt j).forceOffDue = true ∧ (off.gateAt j).deferred = false)) ∧
    (∀ i, i < 64 → (armed.gateAt i).forceOffDue = false) ∧ (armed.setLock (some 50)).gate.lock.isSome = true ∧
    armed.arbiter.waiting = none ∧ waits.levels.any (·.lockout) = false ∧
    waits.arbiter.waiting = some ⟨ctlFrame 14 9 7 [1], .transparent⟩ ∧ waits.arbiter.lastServed = .injected ∧
    (let s := (armed.setLevels [{ level 0 with lockout := true }]).setQueue [p]
     s.gate.lock = none ∧ s.levels.any (·.lockout) = true ∧ s.arbiter.queue = p :: [] ∧ s.arbiter.room = [] ∧
     p.origin = .phase) ∧
    (∀ k ∈ [CtlKind.transparent, .poll 12, .order 12 5, .protectedPoll 12 (pollFrame 14 2 0)],
      (armed.setWaiting (some ⟨pollFrame 14 2 7, k⟩)).arbiter.waiting = some ⟨pollFrame 14 2 7, k⟩) ∧
    (waits.setServed .controller).arbiter.lastServed = .controller ∧ waits.arbiter.queue = [] ∧
    (let s := ((armed.modGate 34 fun g => { g with held := .replayDue 80 }).modGate 50 fun g =>
         { g with handBack := some 30 }).setRoom [.plan 0 3 34 100, .replay 34, .handBack 50]
     s.arbiter.room = .plan 0 3 34 100 :: [.replay 34, .handBack 50] ∧ s.arbiter.queue.length < 16 ∧
     (s.gateAt 34).held = .replayDue 80 ∧ (s.gateAt 50).handBack = some 30 ∧ s.gate.ctlMask.getLsbD 0 = false ∧
     ((after .roomListAppend s).arbiter.queue.map fun q => (q.frame.dst, q.frame.payload)) =
       [(14, [3, 0, 100]), (14, [3, 0, 80]), (40, [0, 0, 30])]) ∧
    (let s := armed.modGate 34 fun g => { g with forceOffDue := true, deferred := true }
     (s.gateAt 34).forceOffDue = true ∧ (s.gateAt 34).deferred = true ∧
     (∀ i, i < 64 → ¬ ((s.gateAt i).forceOffDue = true ∧ (s.gateAt i).deferred = false)) ∧
     (∀ j, j < 34 → ¬ ((s.gateAt j).forceOffDue = true ∧ (s.gateAt j).deferred = true))) ∧
    16 ≤ full.arbiter.queue.length := by
  refine ⟨nofun, nofun, ?_⟩
  decide +kernel

theorem test_meets_ClockAndSilenceTimer :
    dueAt producing.time.silence 499 = false ∧ dueAt producing.time.silence 500 = true ∧
    producing.mgmt.engine = .armed ∧ (producing.latchAt 10).state = .clear ∧
    ((producing.setLatch 10 { Latch.reset with state := .resolved }).latchAt 10).state = .resolved ∧
    ((producing.setLatch 10 { Latch.reset with state := .recovering }).latchAt 10).state = .recovering := by decide +kernel

/-- An entry read at 0 with stale limit 3 s, at 300 and at 301; an actuator entry; a keep-fresh age of 1 s at 99 and 100, and
with no poll yet; a watched and an unwatched channel; a STALE signature short of its persistence and at it. -/
theorem test_meets_AgeCheckTakesEveryEntry :
    let r := route 14 2 .temp (some 5) 0 0
    let s := (machine.modImage 12 fun _ => ⟨832, .fresh, some 0, some 0, false, 0⟩).setAgeDue true
    let w := withSig 47 (sig .stale 12 0 1 2 7)
      (watching.setTables { tables with cls := tables.cls.set 7 ⟨true, true, 0⟩ })
    machine.time.ageDue = false ∧ s.time.ageDue = true ∧ s.mgmt.engine = .config ∧
    (s.setEngine .checking).mgmt.engine = .checking ∧ s.routeAt 12 = some r ∧ RouteKind.temp.isSensor = true ∧
    (s.imageAt 12).status = .fresh ∧ (s.imageAt 12).lastReading = some 0 ∧ 1 ≤ r.stale ∧ r.stale ≤ 255 ∧
    r.stale * 10 < ((301 : Clock) - 0).toNat ∧ ((300 : Clock) - 0).toNat ≤ r.stale * 10 ∧
    s.routeAt 34 = some (route 14 3 .heater (some 5) 0 100) ∧ RouteKind.heater.isSensor = false ∧
    1 ≤ r.keepFresh ∧ r.keepFresh ≤ 255 ∧ (s.imageAt 12).keepPending = false ∧ (s.imageAt 12).pollRef = some 0 ∧
    r.keepFresh * 10 ≤ ((100 : Clock) - 0).toNat ∧ ¬ r.keepFresh * 10 ≤ ((99 : Clock) - 0).toNat ∧
    (machine.imageAt 12).pollRef = none ∧ s.arbiter.queue.length < 8 ∧ 8 ≤ full.arbiter.queue.length ∧
    w.mgmt.engine = .watch ∧ w.watched 12 = true ∧ w.watched 21 = false ∧
    w.sigAt 47 = some (sig .stale 12 0 1 2 7) ∧ (w.classAt 7).watch = true ∧ w.gatesHold (sig .stale 12 0 1 2 7) = true ∧
    (w.runAt 47).count + 1 < 2 ∧ 2 ≤ ((w.setRun 47 ⟨1, .hit, none⟩).runAt 47).count + 1 := by decide +kernel

theorem test_meets_WatchIntervalOffersPolls :
    armed.mgmt.engine ≠ .watch ∧ watching.mgmt.engine = .watch ∧ dueAt watching.time.watchDeadline 999 = false ∧
    dueAt watching.time.watchDeadline 1000 = true ∧ watching.tables.line = some line ∧
    (let w := withSig 47 (sig .above 12 820 1 2 7)
       (watching.setTables { tables with cls := tables.cls.set 7 ⟨true, true, 0⟩ })
     w.watched 12 = true ∧ w.routeAt 12 = some (route 14 2 .temp (some 5) 0 0) ∧
     ((after .watchInterval (w.setClock 1000)).arbiter.queue.map (·.origin)) = [.watch 12] ∧
     (after .watchInterval (w.setClock 1000)).ports.engineSeq = w.ports.engineSeq + 1 ∧
     (after .watchInterval ((w.setQueue (List.replicate 8 ⟨ctlFrame 63 Kind.phase 0 [3], .phase⟩)).setClock
       1000)).arbiter.queue.length = 8) := by decide +kernel

/-- A level at step 10 whose next slot, 11, and whose fail target, 1, are WAIT_FOR steps without limit; at step 11; and in
phase 4 of a DRAIN whose fail target is FAIL. -/
theorem test_meets_StepDeadlineMovesTheLevel :
    let nx := slot .waitFor 12 820 0
    let time := { level 10 with wait := .time, deadline := some 600 }
    let read := { level 10 with wait := .reading, deadline := some 600 }
    let s := fun (sl : PlanSlot) (l : Level) =>
      (withSlot 0 10 sl (withSlot 0 1 nx (withSlot 0 11 nx armed))).setLevels ([] ++ [l])
    nx.kind = .waitFor ∧ nx.timeout = 0 ∧
    (s (slot .waitTime 0 0 60) time).planSlot 0 10 = some (slot .waitTime 0 0 60) ∧
    (s (slot .waitTime 0 0 60) time).planSlot 0 11 = some nx ∧ dueAt time.deadline 600 = true ∧
    dueAt time.deadline 599 = false ∧ time.step + 1 < 12 ∧
    (let w := { slot .waitFor 12 820 60 with failTarget := some 1 }
     (s w read).planSlot 0 10 = some w ∧ w.failTarget = some 1 ∧ (s w read).planSlot 0 1 = some nx) ∧
    (withSlot 0 11 (slot .waitTime 0 0 60) armed).planSlot 0 11 = some (slot .waitTime 0 0 60) ∧
    ({ time with step := 11 } : Level).step = 11 ∧
    (s (slot .drain 6 0 60) { read with tankPhase := 4 }).planSlot 0 10 = some (slot .drain 6 0 60) ∧
    (slot .drain 6 0 60).failTarget = none := by decide +kernel

/-- Tables that pass, and the details of R155 for tables that fail: LINE unwritten, an absent and a wrong entry eye, an exit
position of 120 against a longest rack of 120, a ninth heater at entry 18, overlapping zones, a span, a class, a step and a
cell. -/
theorem test_meets_TableCheckFindsTheFirstFault :
    let heaters := (List.range 9).foldl
      (fun (t : Tables) k => { t with
        route := t.route.setIfInBounds (k + 10) (some (route 20 (byte k) .heater none 0 100)) }) tables
    tables.check = none ∧ Tables.reset.check = some ⟨1, 0, 0, .lineUnwritten⟩ ∧
    { tables with line := some { line with entryEye := 63 } }.check = some ⟨1, 0, 1, .absentRef⟩ ∧
    { tables with line := some { line with entryEye := 34 } }.check = some ⟨1, 0, 1, .wrongKind⟩ ∧
    { tables with line := some { line with exitPos := 120 } }.check = some ⟨1, 0, 0, .exitShort⟩ ∧
    heaters.check = some ⟨2, 18, 0, .heaterCount⟩ ∧
    { tables with zone := tables.zone.set 6 (some (zone .dry 1219 1300 none none 0 0)) }.check =
      some ⟨3, 6, 5, .overlap⟩ ∧
    { tables with zone := tables.zone.set 6 (some (zone .dry 1300 1300 none none 0 0)) }.check = some ⟨3, 6, 0, .span⟩ ∧
    (withSig 47 (sig .above 12 820 1 1 9) machine).tables.check = some ⟨5, 47, 0, .classRange⟩ ∧
    (withSlot 23 11 (slot .set 12 0 0) machine).tables.check = some ⟨8, 23, 11, .wrongKind⟩ ∧
    (withSelect 11 23 machine).tables.check = some ⟨7, 11, 0, .absentRef⟩ := by decide +kernel

end Sys2Proof.Tests
end

section
/-! The centre of a rack record (R13) and the zones it can lie in (R14): the equations of `Rack.centre` by the record's
state, and O14 from them. -/

namespace Sys2Proof.Machine

/-! ### The centre by the record's state (R13) -/

theorem Rack.centre_of_entering {r : Rack} (travel : Travel) (hstate : r.state = .entering) :
    r.centre travel = ((r.position travel / 2 : Nat) : Int) := by
  simp only [Rack.centre, hstate]

/-- IN_LINE and AT_EXIT records have one centre rule. -/
theorem Rack.centre_of_length {r : Rack} {n : Nat} (travel : Travel) (hstate : r.state ≠ .entering)
    (hlen : r.length = some n) : r.centre travel = (r.position travel : Int) - ((n / 2 : Nat) : Int) := by
  cases hcase : r.state with
  | entering => exact absurd hcase hstate
  | inLine | atExit => simp only [Rack.centre, hcase, hlen, Option.getD_some]

/-- The centre is behind the entry eye while less than half of the rack, rounded down, has passed it. -/
theorem Rack.centre_neg_iff {r : Rack} {n : Nat} (travel : Travel) (hstate : r.state ≠ .entering)
    (hlen : r.length = some n) : r.centre travel < 0 ↔ r.position travel < n / 2 := by
  rw [Rack.centre_of_length travel hstate hlen]
  omega

/-! ### Zone membership (R14) -/

theorem Tables.inZone_eq_true_iff {tb : Tables} {z : Nat} {centre : Int} :
    tb.inZone z centre = true ↔ ∃ e, (tb.zone[z]?).join = some e ∧ e.kind ≠ .none ∧
      (e.start : Int) ≤ centre ∧ centre < (e.stop : Int) := by
  cases hentry : (tb.zone[z]?).join with
  | none => simp [Tables.inZone, hentry]
  | some e => simp [Tables.inZone, hentry]

/-- A zone's start is never negative, so no zone reaches behind the entry eye. -/
theorem Tables.inZone_eq_false_of_neg (tb : Tables) (z : Nat) {centre : Int} (hneg : centre < 0) :
    tb.inZone z centre = false := by
  refine Bool.eq_false_iff.mpr fun hin => ?_
  obtain ⟨e, _, _, hstart, _⟩ := Tables.inZone_eq_true_iff.mp hin
  exact absurd hneg (Int.not_lt.mpr ((Int.natCast_nonneg e.start).trans hstart))

/-- Settles O14: R13's equation for each state, and R14 for a centre behind the entry eye. -/
theorem centreOfARecord : Obligations.CentreOfARecord := by
  intro r travel
  refine ⟨r.centre_of_entering travel, fun n => r.centre_of_length travel, fun hstate hlen hpos => ?_,
    fun tb z => tb.inZone_eq_false_of_neg z⟩
  have hleft : r.state ≠ .entering := by simp [hstate]
  exact (Rack.centre_neg_iff travel hleft hlen).mpr hpos

end Sys2Proof.Machine
end

section
/-! A curve's weight (R34, R35): the walk along ascending breakpoints reaches the segment that holds the value, the
segment's line stays between its two weights, and O15 and O16 from these. -/

namespace Sys2Proof.Machine

/-! ### Ascending breakpoints (R32) -/

theorem ascending_iff_isChain (ps : List Breakpoint) :
    ascending ps = true ↔ ps.IsChain (fun a b => a.x < b.x) := by
  induction ps with
  | nil => simp [ascending]
  | cons p rest ih =>
    cases rest with
    | nil => simp [ascending]
    | cons q rest => simp [ascending, ih]

theorem ascending_iff_pairwise (ps : List Breakpoint) :
    ascending ps = true ↔ ps.Pairwise (fun a b => a.x < b.x) := by
  have : IsTrans Breakpoint (fun a b => a.x < b.x) := ⟨fun _ _ _ => Nat.lt_trans⟩
  rw [ascending_iff_isChain, List.isChain_iff_pairwise]

theorem ascending_of_cons {p : Breakpoint} {ps : List Breakpoint} (hasc : ascending (p :: ps) = true) :
    ascending ps = true := by
  rw [ascending_iff_pairwise] at hasc ⊢
  exact hasc.of_cons

/-- The first of ascending breakpoints has the least x. -/
theorem head_x_le_of_ascending {p q : Breakpoint} {ps : List Breakpoint} (hasc : ascending (p :: ps) = true)
    (hmem : q ∈ p :: ps) : p.x ≤ q.x := by
  rw [ascending_iff_pairwise] at hasc
  rcases List.mem_cons.mp hmem with rfl | htail
  · exact le_rfl
  · exact (List.rel_of_pairwise_cons hasc htail).le

theorem x_lt_of_ascending {ps : List Breakpoint} {p q : Breakpoint} {i : Nat} (hasc : ascending ps = true)
    (hp : ps[i]? = some p) (hq : ps[i + 1]? = some q) : p.x < q.x := by
  obtain ⟨hi, rfl⟩ := List.getElem?_eq_some_iff.mp hp
  obtain ⟨hi', rfl⟩ := List.getElem?_eq_some_iff.mp hq
  exact List.pairwise_iff_getElem.mp ((ascending_iff_pairwise ps).mp hasc) i (i + 1) hi hi' i.lt_succ_self

/-! ### The line of one segment (R35) -/

theorem interpolate_self_left (p q : Breakpoint) : interpolate p q p.x = p.w := by
  simp [interpolate]

/-- A fraction `a / d` of at most 1 takes no more than the whole of `b`. -/
theorem tdiv_fraction_bounds {a b d : Int} (ha : 0 ≤ a) (hb : 0 ≤ b) (hd : 0 < d) (had : a ≤ d) :
    0 ≤ (a * b).tdiv d ∧ (a * b).tdiv d ≤ b := by
  have hab : 0 ≤ a * b := Int.mul_nonneg ha hb
  rw [Int.tdiv_eq_ediv_of_nonneg hab]
  refine ⟨Int.ediv_nonneg hab hd.le, Int.ediv_le_of_le_mul hd ?_⟩
  calc a * b ≤ d * b := Int.mul_le_mul_of_nonneg_right had hb
    _ = b * d := Int.mul_comm d b

/-- The line never leaves the span of its two weights, whether it rises or falls. -/
theorem interpolate_bounds {p q : Breakpoint} {x : Nat} (hpx : p.x ≤ x) (hxq : x < q.x) :
    ((min p.w q.w : Nat) : Int) ≤ interpolate p q x ∧ interpolate p q x ≤ ((max p.w q.w : Nat) : Int) := by
  have ha : 0 ≤ (x : Int) - p.x := by omega
  have hd : 0 < (q.x : Int) - p.x := by omega
  have had : (x : Int) - p.x ≤ (q.x : Int) - p.x := by omega
  unfold interpolate
  rcases Nat.le_total p.w q.w with hrise | hfall
  · have hb : 0 ≤ (q.w : Int) - p.w := by omega
    have hfrac := tdiv_fraction_bounds ha hb hd had
    omega
  · have hb : 0 ≤ (p.w : Int) - q.w := by omega
    have hfrac := tdiv_fraction_bounds ha hb hd had
    have hneg : ((x : Int) - p.x) * ((q.w : Int) - p.w) = -(((x : Int) - p.x) * ((p.w : Int) - q.w)) := by ring
    rw [hneg, Int.neg_tdiv]
    omega

theorem natAbs_run_mul_rise_le {p q : Breakpoint} {x : Nat} (hpx : p.x ≤ x) (hxq : x < q.x) (hqx : q.x ≤ 1500)
    (hpw : p.w ≤ 255) (hqw : q.w ≤ 255) : (((x : Int) - p.x) * ((q.w : Int) - p.w)).natAbs ≤ 382500 := by
  rw [Int.natAbs_mul]
  calc ((x : Int) - p.x).natAbs * ((q.w : Int) - p.w).natAbs ≤ 1500 * 255 :=
        Nat.mul_le_mul (by omega) (by omega)
    _ = 382500 := rfl

/-! ### The walk along the breakpoints -/

/-- The walk passes over every breakpoint before one that the value has reached. -/
theorem weightAlong_eq_drop {ps : List Breakpoint} {p : Breakpoint} {i x : Nat} (hasc : ascending ps = true)
    (hp : ps[i]? = some p) (hpx : p.x ≤ x) : weightAlong ps x = weightAlong (ps.drop i) x := by
  induction i generalizing ps with
  | zero => rfl
  | succ i ih =>
    match ps with
    | [] | [_] => simp at hp
    | a :: b :: rest =>
      rw [List.getElem?_cons_succ] at hp
      have hrest : ascending (b :: rest) = true := ascending_of_cons hasc
      have hbx : b.x ≤ x := (head_x_le_of_ascending hrest (List.mem_of_getElem? hp)).trans hpx
      rw [weightAlong, if_neg (Nat.not_lt.mpr hbx), List.drop_succ_cons]
      exact ih hrest hp

theorem weightAlong_of_segment {ps : List Breakpoint} {p q : Breakpoint} {i x : Nat} (hasc : ascending ps = true)
    (hp : ps[i]? = some p) (hq : ps[i + 1]? = some q) (hpx : p.x ≤ x) (hxq : x < q.x) :
    weightAlong ps x = interpolate p q x := by
  rw [weightAlong_eq_drop hasc hp hpx]
  obtain ⟨hi, rfl⟩ := List.getElem?_eq_some_iff.mp hp
  obtain ⟨hi', rfl⟩ := List.getElem?_eq_some_iff.mp hq
  rw [List.drop_eq_getElem_cons hi, List.drop_eq_getElem_cons hi', weightAlong, if_pos hxq]

theorem weightAlong_of_last {ps : List Breakpoint} {p : Breakpoint} {x : Nat} (hasc : ascending ps = true)
    (hp : ps[ps.length - 1]? = some p) (hpx : p.x ≤ x) : weightAlong ps x = p.w := by
  rw [weightAlong_eq_drop hasc hp hpx]
  obtain ⟨hlast, rfl⟩ := List.getElem?_eq_some_iff.mp hp
  rw [List.drop_eq_getElem_cons hlast, List.drop_eq_nil_of_le (by omega), weightAlong]

/-! ### The weight of a curve -/

/-- The breakpoints in use: those below the count (R32). -/
def CurveEntry.used (c : CurveEntry) : List Breakpoint := c.points.take c.count

theorem CurveEntry.length_used {c : CurveEntry} (hcount : c.count ≤ c.points.length) : c.used.length = c.count :=
  List.length_take_of_le hcount

theorem CurveEntry.used_getElem? {c : CurveEntry} {i : Nat} (hi : i < c.count) : c.used[i]? = c.points[i]? :=
  List.getElem?_take_of_lt hi

theorem CurveEntry.weight_of_used {c : CurveEntry} {p : Breakpoint} {rest : List Breakpoint} (x : Nat)
    (hused : c.used = p :: rest) :
    c.weight x = if x ≤ p.x then p.w else (weightAlong (p :: rest) x).toNat := by
  unfold CurveEntry.used at hused
  simp only [CurveEntry.weight, hused]

theorem CurveEntry.weight_of_le_first {c : CurveEntry} {p : Breakpoint} {x : Nat} (hp : c.used[0]? = some p)
    (hxp : x ≤ p.x) : c.weight x = p.w := by
  cases hused : c.used with
  | nil => simp [hused] at hp
  | cons a rest =>
    obtain rfl : a = p := by simpa [hused] using hp
    rw [weight_of_used x hused, if_pos hxp]

/-- At the first breakpoint itself the held end weight and the walk agree. -/
theorem CurveEntry.weight_eq_weightAlong {c : CurveEntry} {p : Breakpoint} {i x : Nat} (htwo : 2 ≤ c.used.length)
    (hasc : ascending c.used = true) (hp : c.used[i]? = some p) (hpx : p.x ≤ x) :
    c.weight x = (weightAlong c.used x).toNat := by
  match hused : c.used with
  | [] | [_] => simp [hused] at htwo
  | a :: b :: rest =>
    rw [hused] at hasc hp
    have hax : a.x ≤ x := (head_x_le_of_ascending hasc (List.mem_of_getElem? hp)).trans hpx
    rw [weight_of_used x hused]
    split
    next hxa =>
      obtain rfl : x = a.x := Nat.le_antisymm hxa hax
      have hab : a.x < b.x := x_lt_of_ascending (i := 0) hasc rfl rfl
      rw [weightAlong, if_pos hab, interpolate_self_left, Int.toNat_natCast]
    next => rfl

theorem CurveEntry.weight_of_last_le {c : CurveEntry} {p : Breakpoint} {x : Nat} (htwo : 2 ≤ c.used.length)
    (hasc : ascending c.used = true) (hp : c.used[c.used.length - 1]? = some p) (hpx : p.x ≤ x) :
    c.weight x = p.w := by
  rw [weight_eq_weightAlong htwo hasc hp hpx, weightAlong_of_last hasc hp hpx, Int.toNat_natCast]

theorem CurveEntry.weight_of_segment {c : CurveEntry} {p q : Breakpoint} {i x : Nat} (hasc : ascending c.used = true)
    (hp : c.used[i]? = some p) (hq : c.used[i + 1]? = some q) (hpx : p.x ≤ x) (hxq : x < q.x) :
    (c.weight x : Int) = interpolate p q x := by
  have htwo : 2 ≤ c.used.length := by
    have := (List.getElem?_eq_some_iff.mp hq).1
    omega
  rw [weight_eq_weightAlong htwo hasc hp hpx, weightAlong_of_segment hasc hp hq hpx hxq]
  exact Int.toNat_of_nonneg ((Int.natCast_nonneg _).trans (interpolate_bounds hpx hxq).1)

/-- At a breakpoint the segment that begins there, or the end weight held there, gives the breakpoint's own weight. -/
theorem CurveEntry.weight_at_breakpoint {c : CurveEntry} {p : Breakpoint} {i : Nat} (htwo : 2 ≤ c.used.length)
    (hasc : ascending c.used = true) (hp : c.used[i]? = some p) : c.weight p.x = p.w := by
  cases hnext : c.used[i + 1]? with
  | some q =>
    have hseg := weight_of_segment hasc hp hnext le_rfl (x_lt_of_ascending hasc hp hnext)
    rw [interpolate_self_left] at hseg
    exact Int.natCast_inj.mp hseg
  | none =>
    have hi := (List.getElem?_eq_some_iff.mp hp).1
    have hend := List.getElem?_eq_none_iff.mp hnext
    obtain rfl : i = c.used.length - 1 := by omega
    exact weight_of_last_le htwo hasc hp le_rfl

/-- Settles O15: the first breakpoint's weight is held below it, and the walk ends in the last one's. -/
theorem curveHoldsItsEndWeights : Obligations.CurveHoldsItsEndWeights := by
  intro c x htwo hcount hasc
  have hlen : c.used.length = c.count := CurveEntry.length_used hcount
  refine ⟨fun p hp hxp => ?_, fun p hp hpx => ?_⟩
  · rw [← CurveEntry.used_getElem? (by omega)] at hp
    exact CurveEntry.weight_of_le_first hp hxp
  · rw [← CurveEntry.used_getElem? (by omega), ← hlen] at hp
    exact CurveEntry.weight_of_last_le (hlen ▸ htwo) hasc hp hpx

/-- Settles O16: the weight is the segment's line, and the line stays between the segment's weights. -/
theorem curveInterpolatesTowardZero : Obligations.CurveInterpolatesTowardZero := by
  intro c i x p q htwo hi hcount hasc hranges hp hq
  have hlen : c.used.length = c.count := CurveEntry.length_used hcount
  rw [← CurveEntry.used_getElem? (by omega)] at hp hq
  obtain ⟨_, hpw⟩ := hranges p (List.mem_of_getElem? hp)
  obtain ⟨hqx, hqw⟩ := hranges q (List.mem_of_getElem? hq)
  refine ⟨fun hpx hxq => ?_, CurveEntry.weight_at_breakpoint (hlen ▸ htwo) hasc hq⟩
  have hline : (c.weight x : Int) = interpolate p q x := CurveEntry.weight_of_segment hasc hp hq hpx hxq
  have hbounds := interpolate_bounds hpx hxq
  have hproduct := natAbs_run_mul_rise_le hpx hxq hqx hpw hqw
  have hquotient := hline
  unfold interpolate at hquotient
  exact ⟨hquotient, by omega, by omega, by omega, hproduct, by omega⟩

end Sys2Proof.Machine
end

section
/-! The disposition of a removed record (R41), the indicator order (R21) and the removal itself (R19), each said once,
and O19 from them. -/

namespace Sys2Proof.Machine

/-! ### The three verdicts (R41) -/

theorem Tables.fallsShort_eq_true_iff {tb : Tables} {c : Credit} :
    tb.fallsShort c = true ↔ ∃ z, (tb.zone[c.zone]?).join = some z ∧
      ((0 < z.heatTarget ∧ c.heat < z.heatTarget) ∨ (0 < z.actTarget ∧ c.action < z.actTarget)) := by
  cases hentry : (tb.zone[c.zone]?).join with
  | none => simp [Tables.fallsShort, hentry]
  | some z => simp [Tables.fallsShort, hentry]

theorem Rack.disposition_of_doubtful {r : Rack} {missed : Bool} (tb : Tables) (h : r.merged = true ∨ missed = true) :
    r.disposition tb missed = .doubt := by
  unfold Rack.disposition
  exact if_pos (Bool.or_eq_true_iff.mpr h)

theorem Rack.disposition_of_sound {r : Rack} (tb : Tables) (hmerged : r.merged = false) :
    r.disposition tb false = if r.rerun || r.credits.any tb.fallsShort then .rerun else .accept := by
  simp [Rack.disposition, hmerged]

theorem Rack.disposition_eq_rerun_iff {r : Rack} (tb : Tables) (hmerged : r.merged = false) :
    r.disposition tb false = .rerun ↔ r.rerun = true ∨ ∃ c ∈ r.credits, tb.fallsShort c = true := by
  rw [disposition_of_sound tb hmerged, ← List.any_eq_true, ← Bool.or_eq_true_iff]
  split
  next h => exact iff_of_true rfl h
  next h => exact iff_of_false Disposition.noConfusion h

theorem Rack.disposition_eq_accept_of_ne_rerun {r : Rack} (tb : Tables) (hmerged : r.merged = false)
    (hrerun : r.disposition tb false ≠ .rerun) : r.disposition tb false = .accept := by
  rw [disposition_of_sound tb hmerged] at hrerun ⊢
  split at hrerun
  next => exact absurd rfl hrerun
  next h => exact if_neg h

/-- What the disposition does not look at: the fault overlap and the gap flags (R41). -/
theorem Rack.disposition_overlap_gap (r : Rack) (tb : Tables) (missed : Bool) (o : Option FaultOverlap) (g : Bool) :
    { r with overlap := o, credits := r.credits.map fun c => { c with gap := g } : Rack }.disposition tb missed =
      r.disposition tb missed := by
  have hshort : (tb.fallsShort ∘ fun c : Credit => { c with gap := g }) = tb.fallsShort := rfl
  simp only [Rack.disposition, List.any_map, hshort]

/-! ### The indicator order (R21) -/

theorem State.offerIndicator_of_no_indicator {s : State}
    (hnone : ∀ l, s.tables.line = some l → l.indicator = none) : s.offerIndicator = s := by
  have hbind : s.tables.line.bind (·.indicator) = none := Option.bind_eq_none_iff.mpr hnone
  simp only [State.offerIndicator, hbind]

theorem State.offerIndicator_of_full {s : State} (hfull : 16 ≤ s.arbiter.queue.length) : s.offerIndicator = s := by
  have hroom : s.queueHasRoom = false := decide_eq_false (Nat.not_lt.mpr hfull)
  unfold State.offerIndicator
  split
  · rw [hroom]; rfl
  · rfl

/-- The frame of the indicator order and its place at the tail of the queue. -/
theorem State.offerIndicator_of_room {s : State} {l : LineRecord} {i : Nat} {e : RouteEntry}
    (hline : s.tables.line = some l) (hind : l.indicator = some i) (hroute : s.routeAt i = some e)
    (hlen : s.arbiter.queue.length < 16) :
    s.offerIndicator =
      (s.setQueue (s.arbiter.queue ++
        [{ frame := { dst := e.node, src := 62, kind := Kind.order, flags := { engine := true },
                      seq := s.ports.engineSeq, payload := [e.chan, 0, 100] },
           origin := .indicator i }])).bumpSeq := by
  have hroom : s.queueHasRoom = true := decide_eq_true hlen
  simp only [State.offerIndicator, hline, Option.bind_some, hind, hroom, if_true, State.appendOrder, hroute]
  rfl

theorem State.appendOrder_notices (i : Nat) (v : Half) (o : Origin) (s : State) :
    (s.appendOrder i v o).notices = s.notices := by
  unfold State.appendOrder
  split <;> rfl

/-- Whether it queues its order or drops it, the notices stay as they are. -/
theorem State.offerIndicator_notices (s : State) : s.offerIndicator.notices = s.notices := by
  unfold State.offerIndicator
  split
  · split
    · exact State.appendOrder_notices ..
    · rfl
  · rfl

/-! ### The removal (R19) -/

/-- The state once a record has left the journal and RACK_LEFT is queued, before the indicator order. -/
def State.recordLeft (s : State) (k : Nat) (r : Rack) (missed : Bool) : State :=
  (s.setJournal { s.journal with racks := s.journal.racks.eraseIdx k }).notify .rackLeft (word r.tag.toNat)
    (word (r.disposition s.tables missed).code) (r.leftFlags missed)

theorem State.removeRack_eq {s : State} {k : Nat} {r : Rack} (missed : Bool) (hrack : s.journal.racks[k]? = some r) :
    s.removeRack k missed = if r.disposition s.tables missed = .accept then s.recordLeft k r missed
      else (s.recordLeft k r missed).offerIndicator := by
  simp only [State.removeRack, hrack, State.recordLeft]

theorem State.removeRack_of_accept {s : State} {k : Nat} {r : Rack} {missed : Bool}
    (hrack : s.journal.racks[k]? = some r) (haccept : r.disposition s.tables missed = .accept) :
    s.removeRack k missed = s.recordLeft k r missed := by
  rw [removeRack_eq missed hrack, if_pos haccept]

theorem State.removeRack_of_not_accept {s : State} {k : Nat} {r : Rack} {missed : Bool}
    (hrack : s.journal.racks[k]? = some r) (hnot : r.disposition s.tables missed ≠ .accept) :
    s.removeRack k missed = (s.recordLeft k r missed).offerIndicator := by
  rw [removeRack_eq missed hrack, if_neg hnot]

/-- Without an order to queue, the verdict makes no difference to the state. -/
theorem State.removeRack_of_no_order {s : State} {k : Nat} {r : Rack} {missed : Bool}
    (hrack : s.journal.racks[k]? = some r)
    (hdropped : (s.recordLeft k r missed).offerIndicator = s.recordLeft k r missed) :
    s.removeRack k missed = s.recordLeft k r missed := by
  rw [removeRack_eq missed hrack, hdropped, ite_self]

theorem State.removeRack_notices {s : State} {k : Nat} {r : Rack} (missed : Bool)
    (hrack : s.journal.racks[k]? = some r) :
    (s.removeRack k missed).notices = (s.recordLeft k r missed).notices := by
  rw [removeRack_eq missed hrack]
  split
  · rfl
  · exact State.offerIndicator_notices _

/-- The journal and the notices are all that the removal writes before the indicator order. -/
theorem State.recordLeft_eq_of_removeRack {s : State} {k : Nat} {r : Rack} (missed : Bool)
    (hrack : s.journal.racks[k]? = some r) :
    { s with
      journal := { s.journal with racks := s.journal.racks.eraseIdx k }
      notices := (s.removeRack k missed).notices } = s.recordLeft k r missed := by
  rw [removeRack_notices missed hrack]
  rfl

/-- Settles O19: the verdict's three cases, and the removal by its verdict and the fate of the indicator order. -/
theorem dispositionOfARemovedRecord : Obligations.DispositionOfARemovedRecord := by
  intro r tb missed
  refine ⟨Rack.disposition_of_doubtful tb, fun hmerged hmissed => ?_, r.disposition_overlap_gap tb missed,
    rfl, rfl, rfl, fun s k hrack htables => ?_⟩
  · subst hmissed
    simp only [← Tables.fallsShort_eq_true_iff]
    exact ⟨Rack.disposition_eq_rerun_iff tb hmerged, Rack.disposition_eq_accept_of_ne_rerun tb hmerged⟩
  · subst htables
    rw [State.recordLeft_eq_of_removeRack missed hrack]
    refine ⟨State.removeRack_notices missed hrack, State.removeRack_of_accept hrack, fun hnone => ?_, fun hfull => ?_,
      fun l i e hnot hline hind hroute hlen => ?_⟩
    · exact State.removeRack_of_no_order hrack (State.offerIndicator_of_no_indicator hnone)
    · exact State.removeRack_of_no_order hrack (State.offerIndicator_of_full hfull)
    · rw [State.removeRack_of_not_accept hrack hnot]
      exact State.offerIndicator_of_room hline hind hroute hlen

end Sys2Proof.Machine
end

section
/-! What every command keeps, for O4 to O11: three relations between the state before and after. `Alike` is agreement on
all that the invariants look at, `QuietFrame` what an event on the part's own blocks keeps (`EventFrame` without the ports),
and `CommandFrame` what a whole command keeps, engine-state changes and table commits among them. -/

namespace Sys2Proof.Machine

/-! ### Agreement on what the invariants look at -/

/-- The two states agree on every component that the capacities, the engine form and the queue form speak of. -/
structure State.Alike (s t : State) : Prop where
  tables    : t.tables = s.tables
  monitor   : t.monitor = s.monitor
  latches   : t.latches = s.latches
  contain   : t.contain = s.contain
  racks     : t.journal.racks = s.journal.racks
  levels    : t.levels = s.levels
  queue     : t.arbiter.queue = s.arbiter.queue
  misses    : t.ports.misses = s.ports.misses
  phase     : t.ports.phase = s.ports.phase
  engine    : t.mgmt.engine = s.mgmt.engine
  check     : t.mgmt.checkBegan = s.mgmt.checkBegan
  notices   : t.notices = s.notices
  clock     : t.time.clock = s.time.clock
  watch     : t.time.watchDeadline = s.time.watchDeadline
  silence   : t.time.silence.isSome = s.time.silence.isSome
  credit    : t.time.creditDue = s.time.creditDue
  pending   : t.pending = s.pending

theorem State.Alike.refl (s : State) : s.Alike s := by constructor <;> rfl

theorem State.Alike.trans {s t u : State} (h : s.Alike t) (g : t.Alike u) : s.Alike u where
  tables := g.tables.trans h.tables
  monitor := g.monitor.trans h.monitor
  latches := g.latches.trans h.latches
  contain := g.contain.trans h.contain
  racks := g.racks.trans h.racks
  levels := g.levels.trans h.levels
  queue := g.queue.trans h.queue
  misses := g.misses.trans h.misses
  phase := g.phase.trans h.phase
  engine := g.engine.trans h.engine
  check := g.check.trans h.check
  notices := g.notices.trans h.notices
  clock := g.clock.trans h.clock
  watch := g.watch.trans h.watch
  silence := g.silence.trans h.silence
  credit := g.credit.trans h.credit
  pending := g.pending.trans h.pending

section
variable {s t : State}

theorem State.Alike.capacities (h : s.Alike t) (c : s.Capacities) : t.Capacities where
  queue := h.queue ▸ c.queue
  notices := h.notices ▸ c.notices
  racks := h.racks ▸ c.racks
  levels := h.levels ▸ c.levels
  misses := h.misses ▸ c.misses
  latches := by unfold State.latchAt; rw [h.latches]; exact c.latches
  repeats := h.contain ▸ c.repeats
  credits := h.racks ▸ c.credits
  lists := h.racks ▸ c.lists
  sigs := by unfold State.sigAt; rw [h.tables]; exact c.sigs
  runs := by unfold State.runAt; rw [h.monitor]; exact c.runs

theorem State.Alike.silenceRuns (h : s.Alike t) : t.silenceRuns = s.silenceRuns := by
  have hlimit : t.silenceLimit = s.silenceLimit := by unfold State.silenceLimit; rw [h.tables]
  unfold State.silenceRuns State.engine
  rw [hlimit, h.engine, h.phase]

theorem State.Alike.form (h : s.Alike t) (f : s.EngineForm) : t.EngineForm where
  check := by rw [h.engine, h.check]; exact f.check
  watch := by rw [h.engine, h.watch]; exact f.watch
  silence := by rw [h.silence, h.silenceRuns]; exact f.silence
  credit := by rw [h.engine, h.credit]; exact f.credit
  racks := by rw [h.engine, h.racks]; exact f.racks
  levels := by rw [h.engine, h.levels]; exact f.levels

theorem State.Alike.queueForm (h : s.Alike t) (q : s.QueueForm) : t.QueueForm := by
  unfold State.QueueForm; rw [h.queue]; exact q

end

/-! #### The updaters that touch none of those components -/

theorem State.setCPort_alike (c : CPort) (s : State) : s.Alike (s.setCPort c) := by constructor <;> rfl
theorem State.setTrans_alike (x : Option NodeTrans) (s : State) : s.Alike (s.setTrans x) := by constructor <;> rfl
theorem State.setSending_alike (f : Option Sys2Proof.Frame) (s : State) : s.Alike (s.setSending f) := by
  constructor <;> rfl
theorem State.setSticky_alike (f : Sticky) (s : State) : s.Alike (s.setSticky f) := by constructor <;> rfl
theorem State.bumpSeq_alike (s : State) : s.Alike s.bumpSeq := by constructor <;> rfl
theorem State.setWaiting_alike (c : Option CtlFrame) (s : State) : s.Alike (s.setWaiting c) := by constructor <;> rfl
theorem State.setServed_alike (v : Served) (s : State) : s.Alike (s.setServed v) := by constructor <;> rfl
theorem State.setPrefix_alike (b : Bool) (s : State) : s.Alike (s.setPrefix b) := by constructor <;> rfl
theorem State.setResult_alike (r : Result) (s : State) : s.Alike (s.setResult r) := by constructor <;> rfl
theorem State.setStaging_alike (b : Option Staged) (s : State) : s.Alike (s.setStaging b) := by constructor <;> rfl
theorem State.setDetail_alike (d : CheckDetail) (s : State) : s.Alike (s.setDetail d) := by constructor <;> rfl
theorem State.setAgeDue_alike (b : Bool) (s : State) : s.Alike (s.setAgeDue b) := by constructor <;> rfl
theorem State.setLock_alike (l : Option Clock) (s : State) : s.Alike (s.setLock l) := by constructor <;> rfl
theorem State.setMasks_alike (a b : Byte) (s : State) : s.Alike (s.setMasks a b) := by constructor <;> rfl
theorem State.modGate_alike (i : Nat) (f : GateCell → GateCell) (s : State) : s.Alike (s.modGate i f) := by
  constructor <;> rfl
theorem State.modImage_alike (i : Nat) (f : ImageCell → ImageCell) (s : State) : s.Alike (s.modImage i f) := by
  constructor <;> rfl
theorem State.reply_alike (f : Sys2Proof.Frame) (s : State) : s.Alike (s.reply f) := s.setCPort_alike _

/-- A present deadline is only moved. -/
theorem State.restartSilence_alike (s : State) : s.Alike s.restartSilence := by
  unfold State.restartSilence
  split
  next h => exact { State.Alike.refl s with silence := by simp [h] }
  next => exact .refl s

theorem State.accept_alike (f : Sys2Proof.Frame) (s : State) : s.Alike (s.accept f) := by
  have hopen : s.Alike (if f.kind = Kind.phase then s else s.setCPort .waiting) := by
    split
    · exact .refl s
    · exact s.setCPort_alike _
  exact (hopen.trans (State.restartSilence_alike _)).trans (State.setPrefix_alike ..)

theorem State.mgmtAnswer_alike (seq code : Byte) (r : Result) (d : List Byte) (s : State) :
    s.Alike (s.mgmtAnswer seq code r d) := (s.setResult_alike r).trans (State.reply_alike ..)

theorem State.answer_alike (r : Request) (seq : Byte) (res : Result) (d : List Byte) (s : State) :
    s.Alike (s.answer r seq res d) := s.mgmtAnswer_alike ..

theorem State.foldl_alike {f : State → Nat → State} (hf : ∀ (u : State) (i : Nat), u.Alike (f u i)) (l : List Nat) (s : State) :
    s.Alike (l.foldl f s) := by
  induction l generalizing s with
  | nil => exact .refl s
  | cons i l ih => exact (hf s i).trans (ih _)

theorem State.clearDeferred_alike (s : State) : s.Alike s.clearDeferred :=
  State.foldl_alike (fun u i => u.modGate_alike i _) _ s

theorem State.openTrans_alike (f : Sys2Proof.Frame) (o : Origin) (s : State) : s.Alike (s.openTrans f o) :=
  (s.setSending_alike _).trans (State.setTrans_alike ..)

theorem State.depart_alike (f : Sys2Proof.Frame) (o : Origin) (s : State) : s.Alike (s.depart f o) := by
  unfold State.depart
  split
  · split
    · split
      · split
        · exact s.openTrans_alike ..
        · exact (s.modGate_alike ..).trans (State.openTrans_alike ..)
      · exact s.openTrans_alike ..
    · exact s.openTrans_alike ..
  · exact s.openTrans_alike ..

/-! ### What an event keeps -/

/-- What an event that commits no entry keeps: tables, queue of commands and clock as they were, the invariants that held,
and of the engine states only the way from WATCH to ARMED. -/
structure State.QuietFrame (s t : State) : Prop where
  tables     : t.tables = s.tables
  pending    : t.pending = s.pending
  clock      : t.time.clock = s.time.clock
  watch      : t.time.watchDeadline = s.time.watchDeadline ∨ t.time.watchDeadline = none
  engine     : t.mgmt.engine = s.mgmt.engine ∨
                 (s.mgmt.engine = .watch ∧ t.mgmt.engine = .armed ∧ t.time.watchDeadline = none)
  capacities : s.Capacities → t.Capacities
  form       : s.EngineForm → t.EngineForm
  queueForm  : s.QueueForm → t.QueueForm

theorem State.EventFrame.quiet {s t : State} (h : s.EventFrame t) : s.QuietFrame t :=
  { h with }

theorem State.GateFrame.quiet {s t : State} (h : s.GateFrame t) : s.QuietFrame t := h.event.quiet

theorem State.Alike.quiet {s t : State} (h : s.Alike t) : s.QuietFrame t :=
  { tables := h.tables, pending := h.pending, clock := h.clock, watch := .inl h.watch, engine := .inl h.engine,
    capacities := h.capacities, form := h.form, queueForm := h.queueForm }

theorem State.QuietFrame.refl (s : State) : s.QuietFrame s := (State.Alike.refl s).quiet

theorem State.QuietFrame.trans {s t u : State} (h : s.QuietFrame t) (g : t.QuietFrame u) : s.QuietFrame u where
  tables := g.tables.trans h.tables
  pending := g.pending.trans h.pending
  clock := g.clock.trans h.clock
  watch := by
    rcases g.watch with hsame | hnone
    · exact h.watch.imp hsame.trans hsame.trans
    · exact .inr hnone
  engine := by
    rcases h.engine with hsame | ⟨hwatch, harmed, hnone⟩
    · rcases g.engine with gsame | ⟨gwatch, garmed, gnone⟩
      · exact .inl (gsame.trans hsame)
      · exact .inr ⟨hsame ▸ gwatch, garmed, gnone⟩
    · rcases g.engine with gsame | ⟨gwatch, _, _⟩
      · exact .inr ⟨hwatch, gsame.trans harmed, g.watch.elim (·.trans hnone) id⟩
      · rw [harmed] at gwatch; cases gwatch
  capacities c := g.capacities (h.capacities c)
  form f := g.form (h.form f)
  queueForm q := g.queueForm (h.queueForm q)

theorem State.QuietFrame.then {s t u : State} (h : s.QuietFrame t) (g : t.Alike u) : s.QuietFrame u := h.trans g.quiet
theorem State.QuietFrame.event {s t u : State} (h : s.QuietFrame t) (g : t.EventFrame u) : s.QuietFrame u :=
  h.trans g.quiet

/-! ### What a command keeps -/

/-- What the engine-state table lets a command do to the engine state (R149). -/
def State.EngineMoves (s t : State) (c : Instr) : Prop :=
  (s.mgmt.engine = .config ∧ t.mgmt.engine = .checking) ∨
  (s.mgmt.engine = .checking ∧ t.mgmt.engine = .armed ∧ c = .checkCompletion) ∨
  (s.mgmt.engine = .checking ∧ t.mgmt.engine = .config) ∨
  (s.mgmt.engine = .armed ∧ t.mgmt.engine = .config) ∨
  (s.mgmt.engine = .armed ∧ t.mgmt.engine = .watch ∧ s.journal.racks = [] ∧ s.levels = []) ∨
  (s.mgmt.engine = .watch ∧ (t.mgmt.engine = .armed ∨ t.mgmt.engine = .config) ∧ t.time.watchDeadline = none)

/-- What every command but RESET_N keeps. -/
structure State.CommandFrame (s t : State) (c : Instr) : Prop where
  pending    : t.pending = s.pending
  clock      : c ≠ .lineClockAdvance → t.time.clock = s.time.clock
  structural : s.mgmt.engine ≠ .config → s.tables.SameStructural t.tables
  live       : s.mgmt.engine ≠ .config → s.mgmt.engine ≠ .armed → t.tables = s.tables
  engine     : t.mgmt.engine = s.mgmt.engine ∨ s.EngineMoves t c
  capacities : s.Capacities → t.Capacities
  form       : s.EngineForm → t.EngineForm
  queueForm  : s.QueueForm → t.QueueForm

theorem Tables.SameStructural.of_eq {t u : Tables} (h : u = t) : t.SameStructural u := by
  subst h; constructor <;> rfl

section
variable {s t u : State} {c : Instr}

theorem State.QuietFrame.command (h : s.QuietFrame t) : s.CommandFrame t c where
  pending := h.pending
  clock _ := h.clock
  structural _ := .of_eq h.tables
  live _ _ := h.tables
  engine := h.engine.imp id fun ⟨hwatch, harmed, hnone⟩ =>
    .inr (.inr (.inr (.inr (.inr ⟨hwatch, .inl harmed, hnone⟩))))
  capacities := h.capacities
  form := h.form
  queueForm := h.queueForm

theorem State.Alike.command (h : s.Alike t) : s.CommandFrame t c := h.quiet.command
theorem State.EventFrame.command (h : s.EventFrame t) : s.CommandFrame t c := h.quiet.command

theorem State.Alike.before (h : s.Alike t) (g : t.CommandFrame u c) : s.CommandFrame u c where
  pending := g.pending.trans h.pending
  clock hc := (g.clock hc).trans h.clock
  structural := by rw [← h.engine, ← h.tables]; exact g.structural
  live := by rw [← h.engine, ← h.tables]; exact g.live
  engine := by
    have hg := g.engine
    unfold State.EngineMoves at hg ⊢
    rwa [h.engine, h.racks, h.levels] at hg
  capacities c := g.capacities (h.capacities c)
  form f := g.form (h.form f)
  queueForm q := g.queueForm (h.queueForm q)

/-- An event follows a command that left the engine state as it was. -/
theorem State.CommandFrame.quietly (h : s.CommandFrame t c) (he : t.mgmt.engine = s.mgmt.engine)
    (g : t.QuietFrame u) : s.CommandFrame u c where
  pending := g.pending.trans h.pending
  clock hc := g.clock.trans (h.clock hc)
  structural := by rw [g.tables]; exact h.structural
  live := by rw [g.tables]; exact h.live
  engine := g.engine.imp (·.trans he) fun ⟨hwatch, harmed, hnone⟩ =>
    .inr (.inr (.inr (.inr (.inr ⟨he ▸ hwatch, .inl harmed, hnone⟩))))
  capacities c := g.capacities (h.capacities c)
  form f := g.form (h.form f)
  queueForm q := g.queueForm (h.queueForm q)

theorem State.CommandFrame.then (h : s.CommandFrame t c) (g : t.Alike u) : s.CommandFrame u c where
  pending := g.pending.trans h.pending
  clock hc := g.clock.trans (h.clock hc)
  structural := by rw [g.tables]; exact h.structural
  live := by rw [g.tables]; exact h.live
  engine := by
    have hh := h.engine
    unfold State.EngineMoves at hh ⊢
    rwa [g.engine, g.watch]
  capacities c := g.capacities (h.capacities c)
  form f := g.form (h.form f)
  queueForm q := g.queueForm (h.queueForm q)

theorem State.CommandFrame.answer (h : s.CommandFrame t c) (r : Request) (seq : Byte) (res : Result) (d : List Byte) :
    s.CommandFrame (t.answer r seq res d) c := h.then (t.answer_alike ..)

end

theorem State.answer_command {c : Instr} (r : Request) (seq : Byte) (res : Result) (d : List Byte) (s : State) :
    s.CommandFrame (s.answer r seq res d) c := (s.answer_alike ..).command

end Sys2Proof.Machine
end

section
/-! What the commands of the N-port and of its arbiter keep: `QuietFrame`. -/

namespace Sys2Proof.Machine

/-! ### The N-port -/

theorem State.setMisses_quiet (node : Byte) {n : Nat} (hn : n ≤ 3) (s : State) : s.QuietFrame (s.setMisses node n) where
  tables := rfl
  pending := rfl
  clock := rfl
  watch := .inl rfl
  engine := .inl rfl
  capacities c := { c with
    misses := fun i hi => by
      rw [State.setMisses_ports_misses, Vector.getElem_setIfInBounds]
      split
      · exact hn
      · exact c.misses i hi }
  form f := { f with }
  queueForm q := q

theorem State.originEnded_event (e : OrderEnd) (s : State) : s.EventFrame (s.originEnded e) := by
  unfold State.originEnded
  split
  · exact .refl s
  · split
    · unfold State.forceOffEnded
      split <;> exact (State.EventFrame.refl s).modGate _ _
    · exact ((State.GateFrame.refl s).replayEnded _).event
    · exact (State.EventFrame.refl s).planOrderEnded _ _ _
    · exact .refl s

theorem State.upstreamReply_alike (t : NodeTrans) (f : Sys2Proof.Frame) (s : State) : s.Alike (s.upstreamReply t f) := by
  unfold State.upstreamReply
  split
  · unfold State.forwardReply
    split <;> exact s.reply_alike _
  · exact .refl s

theorem State.upstreamMiss_alike (t : NodeTrans) (s : State) : s.Alike (s.upstreamMiss t) := by
  unfold State.upstreamMiss
  split
  · unfold State.missReply
    split <;> exact s.reply_alike _
  · exact .refl s

theorem State.imageTakesReply_event (t : NodeTrans) (f : Sys2Proof.Frame) (s : State) :
    s.EventFrame (s.imageTakesReply t f) := by
  unfold State.imageTakesReply
  split
  · exact .refl s
  · exact ((State.EventFrame.refl s).clearKeepPending _).offerReply _

theorem State.imageTakesMiss_event (t : NodeTrans) (s : State) : s.EventFrame (s.imageTakesMiss t) := by
  unfold State.imageTakesMiss
  split
  · exact .refl s
  · exact ((State.EventFrame.refl s).clearKeepPending _).missPoll _

theorem State.endWithReply_quiet (t : NodeTrans) (f : Sys2Proof.Frame) (s : State) : s.QuietFrame (s.endWithReply t f) :=
  ((((s.setMisses_quiet t.req.dst (Nat.zero_le 3)).event (State.imageTakesReply_event ..)).event
    (State.originEnded_event ..)).then (State.setTrans_alike ..)).then (State.upstreamReply_alike ..)

theorem State.countMiss_quiet (node : Byte) (s : State) : s.QuietFrame (s.countMiss node) := by
  have hcount := s.setMisses_quiet node (Nat.min_le_left 3 (s.missesAt node + 1))
  unfold State.countMiss
  dsimp only
  split
  · exact hcount.event ((State.EventFrame.refl _).raise _ _)
  · exact hcount

theorem State.endWithMiss_quiet (t : NodeTrans) (s : State) : s.QuietFrame (s.endWithMiss t) :=
  ((((s.countMiss_quiet t.req.dst).event (State.imageTakesMiss_event ..)).event
    (State.originEnded_event ..)).then (State.setTrans_alike ..)).then (State.upstreamMiss_alike ..)

theorem State.nonReplyEnded_quiet (s : State) : s.QuietFrame s.nonReplyEnded := by
  unfold State.nonReplyEnded
  split
  · exact .refl s
  · split
    · exact s.endWithMiss_quiet _
    · exact (s.setTrans_alike _).quiet

theorem State.receiveN_quiet (f : Sys2Proof.Frame) (s : State) : s.QuietFrame (s.receiveN f) := by
  unfold State.receiveN
  split
  · exact (s.setSticky_alike _).quiet.trans (State.nonReplyEnded_quiet _)
  · split
    · exact (s.setSticky_alike _).quiet
    · split
      · exact s.endWithReply_quiet _ _
      · exact (s.setSticky_alike _).quiet.trans (State.nonReplyEnded_quiet _)

theorem State.timeoutExpires_quiet (s : State) : s.QuietFrame s.timeoutExpires := by
  unfold State.timeoutExpires
  split
  · exact .refl s
  · split
    · split
      · exact (s.setTrans_alike _).quiet
      · exact s.endWithMiss_quiet _
    · exact .refl s

theorem State.lateFrame_quiet (f : Sys2Proof.Frame) (s : State) : s.QuietFrame (s.lateFrame f) := by
  unfold State.lateFrame
  split
  · refine State.QuietFrame.trans ?_ (State.receiveN_quiet ..)
    split
    · exact (s.setTrans_alike _).quiet
    · exact .refl s
  · exact s.receiveN_quiet f

theorem State.sendForceOff_alike (i : Nat) (s : State) : s.Alike (s.sendForceOff i) := by
  unfold State.sendForceOff
  split
  · exact (s.openTrans_alike ..).trans (State.bumpSeq_alike _)
  · exact .refl s

theorem State.sendController_alike (c : CtlFrame) (s : State) : s.Alike (s.sendController c) :=
  (((s.setWaiting_alike none).trans (State.setServed_alike ..)).trans (State.clearDeferred_alike _)).trans
    (State.depart_alike ..)

theorem State.queueTail_frame (s : State) : s.GateFrame (s.setQueue s.arbiter.queue.tail) :=
  s.setQueue_frame _ (fun hc => by rw [List.length_tail]; omega) fun hq q hmem => hq q (List.mem_of_mem_tail hmem)

theorem State.sendInjected_quiet (q : QFrame) (s : State) : s.QuietFrame (s.sendInjected q) := by
  have hhead : s.QuietFrame ((((s.setQueue s.arbiter.queue.tail).fillRoom).setServed .injected).clearDeferred) :=
    (s.queueTail_frame.fillRoom.quiet.then (State.setServed_alike ..)).then (State.clearDeferred_alike _)
  unfold State.sendInjected
  dsimp only
  split
  · exact hhead.then (State.setSending_alike ..)
  · exact hhead.then (State.depart_alike ..)

theorem State.arbitrate_quiet (s : State) : s.QuietFrame s.arbitrate := by
  unfold State.arbitrate
  split
  · split
    · unfold State.sendChoice
      split
      · exact (s.sendForceOff_alike _).quiet
      · exact (s.sendController_alike _).quiet
      · exact s.sendInjected_quiet _
    · exact .refl s
  · exact .refl s

theorem State.sendEnded_alike (s : State) : s.Alike s.sendEnded := by
  unfold State.sendEnded
  split
  · exact .refl s
  · dsimp only
    split
    · exact (s.setSending_alike _).trans (State.setTrans_alike ..)
    · exact s.setSending_alike _

theorem State.replyBegins_alike (s : State) : s.Alike s.replyBegins := by
  unfold State.replyBegins
  split
  · exact s.setTrans_alike _
  · exact .refl s

/-- The check that begins is running in CHECKING. -/
theorem State.beginCheck_quiet (s : State) : s.QuietFrame s.beginCheck := by
  unfold State.beginCheck
  split
  next hchecking =>
    exact { State.QuietFrame.refl s with
      capacities := fun c => { c with }
      form := fun f => { f with check := fun hne => absurd hchecking.1 hne } }
  next => exact .refl s

theorem State.replyEnded_quiet (s : State) : s.QuietFrame s.replyEnded := by
  unfold State.replyEnded
  split
  · exact (s.setCPort_alike _).quiet.trans (State.beginCheck_quiet _)
  · exact .refl s

end Sys2Proof.Machine
end

section
/-! `CommandFrame` of the time base's commands: age check, credit tick, watch interval, expiries and the check's completion. -/

namespace Sys2Proof.Machine

/-! ### The time base -/

theorem State.takeAgeCheck_quiet (s : State) : s.QuietFrame s.takeAgeCheck := by
  unfold State.takeAgeCheck
  split
  · exact (s.setAgeDue_alike _).quiet.event (State.EventFrame.refl _).ageAll
  · exact .refl s

theorem addCredit_le {credit : Nat} (given : Option Nat) (hcredit : credit ≤ 65535) : addCredit credit given ≤ 65535 := by
  unfold addCredit
  split
  · exact Nat.min_le_left ..
  · exact hcredit

theorem State.creditEntry_bound (s : State) (z : ZoneEntry) {c : Credit} (h : c.heat ≤ 65535 ∧ c.action ≤ 65535) :
    (s.creditEntry z c).heat ≤ 65535 ∧ (s.creditEntry z c).action ≤ 65535 := by
  unfold State.creditEntry
  dsimp only
  exact ⟨by split; exacts [addCredit_le _ h.1, h.1], by split; exacts [addCredit_le _ h.2, h.2]⟩

/-- A record on a tick: its credits are credited each in its place. -/
theorem State.creditRack_eq (s : State) (r : Rack) :
    ∃ f : Credit → Credit, s.creditRack r = { r with credits := r.credits.map f } ∧
      ∀ c, f c = c ∨ ∃ z, f c = s.creditEntry z c := by
  have hsame : r = { r with credits := r.credits.map id } := by rw [List.map_id]
  unfold State.creditRack
  split
  · exact ⟨id, hsame, fun c => .inl rfl⟩
  · split
    · exact ⟨id, hsame, fun c => .inl rfl⟩
    · refine ⟨_, rfl, fun c => ?_⟩
      split
      · exact .inr ⟨_, rfl⟩
      · exact .inl rfl

theorem State.creditAll_event (s : State) : s.EventFrame s.creditAll := by
  refine (State.EventFrame.refl s).setJournal _ (fun hcap => ⟨by simpa using hcap.racks, fun r hr => ?_⟩)
    fun _ hnone => by simp [hnone]
  obtain ⟨q, hq, rfl⟩ := List.mem_map.mp hr
  obtain ⟨f, heq, hf⟩ := s.creditRack_eq q
  rw [heq]
  refine ⟨fun c hc => ?_, by simpa using hcap.lists q hq⟩
  obtain ⟨d, hd, rfl⟩ := List.mem_map.mp hc
  rcases hf d with hkept | ⟨z, hcredited⟩
  · rw [hkept]; exact hcap.credits q hq d hd
  · rw [hcredited]; exact s.creditEntry_bound z (hcap.credits q hq d hd)

theorem State.setCreditDue_quiet (s : State) : s.QuietFrame (s.setCreditDue false) :=
  { State.QuietFrame.refl s with
    capacities := fun c => { c with }
    form := fun f => { f with credit := fun _ => rfl } }

theorem State.takeCreditTick_quiet (s : State) : s.QuietFrame s.takeCreditTick := by
  unfold State.takeCreditTick
  split
  · exact s.setCreditDue_quiet.event (State.creditAll_event _)
  · exact .refl s

theorem State.watchRound_command {c : Instr} {s : State} (hwatch : s.mgmt.engine = .watch) :
    s.CommandFrame s.watchRound c := by
  have hset : s.CommandFrame (s.setWatch s.nextWatch) c :=
    { (State.QuietFrame.refl s).command with
      engine := .inl rfl
      capacities := fun c => { c with }
      form := fun f => { f with watch := fun hne => absurd hwatch hne } }
  exact hset.quietly rfl ((State.EventFrame.refl _).foldl _ _ fun _ i h => h.offerWatchPoll i).quiet

theorem State.takeWatchInterval_command {c : Instr} (s : State) : s.CommandFrame s.takeWatchInterval c := by
  unfold State.takeWatchInterval
  split
  next h => exact State.watchRound_command h.1
  next => exact (State.QuietFrame.refl s).command

theorem State.engine_eq_armed_of_silenceRuns {s : State} (h : s.silenceRuns = true) : s.mgmt.engine = .armed := by
  simp only [State.silenceRuns, Bool.and_eq_true, decide_eq_true_eq] at h
  exact h.1.1.1

theorem State.silenceRuns_eq_false {s : State} (h : s.mgmt.engine ≠ .armed) : s.silenceRuns = false :=
  Bool.eq_false_iff.mpr fun hruns => h (State.engine_eq_armed_of_silenceRuns hruns)

/-- An event in ARMED leaves the three conditions of the silence timer as they were. -/
theorem State.EventFrame.silenceRuns_armed {s t : State} (h : s.EventFrame t) (harmed : s.mgmt.engine = .armed) :
    t.silenceRuns = s.silenceRuns := by
  have hengine : t.mgmt.engine = s.mgmt.engine := h.engine.resolve_right fun ⟨hwatch, _⟩ => by
    rw [harmed] at hwatch; cases hwatch
  have hlimit : t.silenceLimit = s.silenceLimit := by unfold State.silenceLimit; rw [h.tables]
  unfold State.silenceRuns State.engine
  rw [hlimit, hengine, h.phase]

/-- The timer that expires was running, so that it runs on. -/
theorem State.takeSilenceExpiry_quiet (s : State) : s.QuietFrame s.takeSilenceExpiry := by
  unfold State.takeSilenceExpiry
  split
  next hdue =>
    have hraise := (State.EventFrame.refl s).raise 10
      { source := .silence, zone := none, value := s.silenceLimit, time := s.now }
    unfold State.expireSilence
    exact
      { hraise.quiet with
        capacities := fun c => { hraise.capacities c with }
        form := fun f => by
          have hsome : s.time.silence.isSome = true := by
            unfold dueAt at hdue
            split at hdue
            next h => rw [h]; rfl
            next => cases hdue
          have hruns : s.silenceRuns = true := f.silence ▸ hsome
          have hafter := (hraise.silenceRuns_armed (State.engine_eq_armed_of_silenceRuns hruns)).trans hruns
          exact { hraise.form f with silence := hafter.symm } }
  next => exact .refl s

theorem State.takeLockExpiry_alike (s : State) : s.Alike s.takeLockExpiry := by
  unfold State.takeLockExpiry
  split
  · exact s.setLock_alike _
  · exact .refl s

theorem State.advanceClock_command (s : State) : s.CommandFrame s.advanceClock .lineClockAdvance :=
  { (State.QuietFrame.refl s).command (c := .lineClockAdvance) with
    clock := fun h => absurd rfl h
    engine := .inl rfl
    capacities := fun c => { c with }
    form := fun f => { f with
      credit := fun hne => by
        have hold : s.time.creditDue = false := f.credit hne
        have hnot : decide (s.engine = .armed) = false := decide_eq_false hne
        show (s.time.creditDue || (decide (s.engine = .armed) && _)) = false
        rw [hold, hnot]
        rfl } }

/-! ### The table check's completion (R156) -/

/-- The entry to ARMED makes the engine form whole, and changes nothing of it but the silence timer. -/
theorem State.enterArmed_form {s : State} (harmed : s.mgmt.engine = .armed) (hcheck : s.mgmt.checkBegan = none)
    (hwatch : s.time.watchDeadline = none) : s.enterArmed.EngineForm := by
  obtain ⟨d, hd⟩ := syncSilence_eq s
  refine (State.EventFrame.refl s.syncSilence).runEvaluate.form
    { check := ?_, watch := ?_, silence := syncSilence_iff s, credit := ?_, racks := ?_, levels := ?_ }
  all_goals rw [hd]
  · exact fun _ => hcheck
  · exact fun _ => hwatch
  all_goals exact fun hne => absurd harmed hne

/-- The entry to ARMED moves the silence timer's deadline, and the executor's evaluation follows. -/
theorem State.enterArmed_event (s : State) : ∃ d, (s.setSilence d).EventFrame s.enterArmed := by
  obtain ⟨d, hd⟩ := syncSilence_eq s
  exact ⟨d, hd ▸ (State.EventFrame.refl s.syncSilence).runEvaluate⟩

theorem State.EventFrame.stays_armed {s t : State} (h : s.EventFrame t) (harmed : s.mgmt.engine = .armed) :
    t.mgmt.engine = .armed :=
  h.engine.elim (·.trans harmed) (·.2.1)

/-- In CHECKING the running check may end. -/
theorem State.setCheck_none_quiet (s : State) : s.QuietFrame (s.setCheck none) :=
  { State.QuietFrame.refl s with
    capacities := fun c => { c with }
    form := fun f => { f with check := fun _ => rfl } }

/-- The step from CHECKING to ARMED, after an event that leaves no check running. -/
theorem State.QuietFrame.armAfterCheck {s u : State} (h : s.QuietFrame u) (hchecking : s.mgmt.engine = .checking)
    (hstill : u.mgmt.engine = .checking) (hcheck : u.mgmt.checkBegan = none) :
    s.CommandFrame (u.setEngine .armed).enterArmed .checkCompletion := by
  obtain ⟨d, hrun⟩ := State.enterArmed_event (u.setEngine .armed)
  have hform (f : u.EngineForm) := State.enterArmed_form (s := u.setEngine .armed) rfl hcheck
    (f.watch (by rw [hstill]; exact Engine.noConfusion))
  generalize State.enterArmed _ = t at hrun hform ⊢
  have htables : t.tables = s.tables := hrun.tables.trans h.tables
  exact
    { pending := hrun.pending.trans h.pending
      clock := fun _ => hrun.clock.trans h.clock
      structural := fun _ => .of_eq htables
      live := fun _ _ => htables
      engine := .inr (.inr (.inl ⟨hchecking, hrun.stays_armed rfl, rfl⟩))
      capacities := fun c => hrun.capacities { h.capacities c with }
      form := fun f => hform (h.form f)
      queueForm := fun q => hrun.queueForm (h.queueForm q) }

/-- The step from CHECKING to CONFIG, after an event that leaves no check running. -/
theorem State.QuietFrame.configAfterCheck {s u : State} {c : Instr} (h : s.QuietFrame u)
    (hchecking : s.mgmt.engine = .checking) (hstill : u.mgmt.engine = .checking) (hcheck : u.mgmt.checkBegan = none) :
    s.CommandFrame (u.setEngine .config) c := by
  have hne : u.mgmt.engine ≠ .armed := by rw [hstill]; exact Engine.noConfusion
  exact
    { pending := h.pending
      clock := fun _ => h.clock
      structural := fun _ => .of_eq h.tables
      live := fun _ _ => h.tables
      engine := .inr (.inr (.inr (.inl ⟨hchecking, rfl⟩)))
      capacities := fun c => { h.capacities c with }
      form := fun f =>
        { check := fun _ => hcheck
          watch := fun _ => (h.form f).watch (by rw [hstill]; exact Engine.noConfusion)
          silence := (h.form f).silence.trans (State.silenceRuns_eq_false hne)
          credit := fun _ => rfl
          racks := fun _ => (h.form f).racks hne
          levels := fun _ => (h.form f).levels hne }
      queueForm := h.queueForm }

theorem State.checkEnded_quiet (s : State) (d : CheckDetail) (a b c : Half) :
    s.QuietFrame (((s.setCheck none).setDetail d).notify .checkDone a b c) :=
  (s.setCheck_none_quiet.then (State.setDetail_alike ..)).event ((State.EventFrame.refl _).notify _ _ _ _)

theorem State.completeCheck_command (s : State) : s.CommandFrame s.completeCheck .checkCompletion := by
  unfold State.completeCheck
  split
  next h =>
    split
    · exact (s.checkEnded_quiet ..).armAfterCheck h.1 h.1 rfl
    · exact (s.checkEnded_quiet ..).configAfterCheck h.1 h.1 rfl
  next => exact (State.QuietFrame.refl s).command

end Sys2Proof.Machine
end

section
/-! `CommandFrame` of the controller's frames to nodes, of PHASE and of TABLE_WRITE. -/

namespace Sys2Proof.Machine

/-! ### Traffic of the cycle controller -/

theorem State.setOverrun_alike (s : State) : s.Alike s.setOverrun := s.setSticky_alike _
theorem State.setBadC_alike (s : State) : s.Alike s.setBadC := s.setSticky_alike _
theorem State.setBadPhase_alike (s : State) : s.Alike s.setBadPhase := s.setSticky_alike _
theorem State.passOver_alike (f : Sys2Proof.Frame) (s : State) : s.Alike (s.passOver f) := s.setWaiting_alike _
theorem State.answerGate_alike (i : Nat) (f : Sys2Proof.Frame) (st : Byte) (s : State) :
    s.Alike (s.answerGate i f st) := s.reply_alike _
theorem State.answerUnknown_alike (seq e : Byte) (s : State) : s.Alike (s.answerUnknown seq e) := s.mgmtAnswer_alike ..

theorem State.wakeOnOrder_event (s : State) : s.EventFrame s.wakeOnOrder := by
  unfold State.wakeOnOrder
  split
  next h => exact (State.EventFrame.refl s).endWatch h.1 h.1 _ _
  next => exact .refl s

theorem State.letThrough_quiet (i : Nat) (f : Sys2Proof.Frame) (v : Half) (s : State) :
    s.QuietFrame (s.letThrough i f v) :=
  ((State.GateFrame.refl s).supersedeReplay i).quiet.then (State.setWaiting_alike ..)

theorem State.convertProtected_alike (i : Nat) (r : RouteEntry) (f : Sys2Proof.Frame) (s : State) :
    s.Alike (s.convertProtected i r f) := by
  unfold State.convertProtected
  split
  · exact s.answerGate_alike ..
  · exact (s.setWaiting_alike _).trans (State.bumpSeq_alike _)

theorem State.decideOrder_quiet (i : Nat) (r : RouteEntry) (f : Sys2Proof.Frame) (s : State) :
    s.QuietFrame (s.decideOrder i r f) := by
  unfold State.decideOrder
  dsimp only
  split
  · split
    · exact (s.convertProtected_alike ..).quiet
    · split
      · exact (s.answerGate_alike ..).quiet
      · split
        · exact ((s.modGate_alike ..).trans (State.answerGate_alike ..)).quiet
        · exact s.letThrough_quiet ..
  · exact s.letThrough_quiet ..

theorem State.decidePoll_alike (i : Nat) (f : Sys2Proof.Frame) (s : State) : s.Alike (s.decidePoll i f) := by
  unfold State.decidePoll
  split
  · exact s.reply_alike _
  · exact s.setWaiting_alike _

theorem State.handleOrder_quiet (f : Sys2Proof.Frame) (s : State) : s.QuietFrame (s.handleOrder f) := by
  refine s.wakeOnOrder_event.quiet.trans ?_
  unfold State.handleOrder
  dsimp only
  split
  · split
    · split
      · exact State.decideOrder_quiet ..
      · exact (State.passOver_alike ..).quiet
    · exact (State.passOver_alike ..).quiet
  · exact (State.passOver_alike ..).quiet

theorem State.handlePoll_alike (f : Sys2Proof.Frame) (s : State) : s.Alike (s.handlePoll f) := by
  unfold State.handlePoll
  split
  · split
    · exact s.decidePoll_alike ..
    · exact s.passOver_alike f
  · exact s.passOver_alike f

theorem State.handleNode_quiet (f : Sys2Proof.Frame) (s : State) : s.QuietFrame (s.handleNode f) := by
  unfold State.handleNode
  split
  · exact s.handleOrder_quiet f
  · split
    · exact (s.handlePoll_alike f).quiet
    · exact (s.passOver_alike f).quiet

/-! ### PHASE (R125) -/

/-- The silence timer follows the tracked phase. -/
theorem State.setPhase_syncSilence_quiet (p : Phase) (s : State) : s.QuietFrame (s.setPhase p).syncSilence := by
  have hruns := syncSilence_iff (s.setPhase p)
  obtain ⟨d, hd⟩ := syncSilence_eq (s.setPhase p)
  rw [hd] at hruns ⊢
  exact { State.QuietFrame.refl s with
    capacities := fun c => { c with }
    form := fun f => { f with silence := hruns } }

theorem State.trackPhase_quiet (payload : List Byte) (s : State) : s.QuietFrame (s.trackPhase payload) := by
  unfold State.trackPhase
  split
  · split
    · split
      · exact .refl s
      · exact s.setPhase_syncSilence_quiet _
    · exact s.setBadPhase_alike.quiet
  · exact s.setBadPhase_alike.quiet

theorem State.forwardPhase_quiet {f : Sys2Proof.Frame} (hkind : f.kind = Kind.phase) (s : State) :
    s.QuietFrame (s.forwardPhase f) := by
  unfold State.forwardPhase
  split
  next hroom =>
    exact (s.appendFrame_frame { f with flags := {} } _ hroom ⟨⟨fun _ => hkind, fun _ => rfl⟩, fun _ => Origin.noConfusion⟩).quiet
  next => exact .refl s

/-! ### TABLE_WRITE (R159, R160) -/

/-- Where a commit may fall: any table in CONFIG, the live ones in ARMED. -/
def State.Writable (s : State) (t : TableId) : Prop :=
  s.mgmt.engine = .config ∨ (s.mgmt.engine = .armed ∧ t.isLive = true)

theorem State.setTables_command {c : Instr} {s : State} {tb : Tables}
    (hlive : s.mgmt.engine = .config ∨ (s.mgmt.engine = .armed ∧ s.tables.SameStructural tb))
    (hsigs : s.Capacities → ∀ (g : Nat) (e : SigEntry), (tb.signature[g]?).join = some e → e.persistence ≤ 15) :
    s.CommandFrame (s.setTables tb) c where
  pending := rfl
  clock _ := rfl
  structural hne := (hlive.resolve_left hne).2
  live hne hna := absurd (hlive.resolve_left hne).1 hna
  engine := .inl rfl
  capacities cap := { cap with sigs := hsigs cap }
  form f := { f with
    silence := by
      refine f.silence.trans ?_
      rcases hlive with hconfig | ⟨_, hsame⟩
      · have hne : s.mgmt.engine ≠ .armed := by rw [hconfig]; exact Engine.noConfusion
        rw [State.silenceRuns_eq_false hne]
        exact (State.silenceRuns_eq_false (s := s.setTables tb) hne).symm
      · have hlimit : (s.setTables tb).silenceLimit = s.silenceLimit := by
          unfold State.silenceLimit
          rw [State.setTables_tables, hsame.line]
        unfold State.silenceRuns
        rw [hlimit]
        rfl }
  queueForm q := q

section
variable {c : Instr} {s : State}

/-- A structural table's commit, the signatures left as they were. -/
theorem State.Writable.structural {t : TableId} (h : s.Writable t) (hlive : t.isLive = false) {tb : Tables}
    (hsig : tb.signature = s.tables.signature) : s.CommandFrame (s.setTables tb) c :=
  State.setTables_command (h.imp_right fun ⟨_, hl⟩ => by rw [hlive] at hl; cases hl) fun cap => by
    rw [hsig]; exact cap.sigs

theorem State.Writable.commitLine (h : s.Writable .line) (l : LineRecord) : s.CommandFrame (s.commitLine l) c :=
  h.structural rfl rfl

theorem State.Writable.commitRoute (h : s.Writable .route) (i : Nat) (r : RouteEntry) :
    s.CommandFrame (s.commitRoute i r) c := by
  have hset : s.CommandFrame (s.setTables { s.tables with route := s.tables.route.setIfInBounds i (some r) }) c :=
    h.structural rfl rfl
  exact (hset.then (State.modImage_alike ..)).then (State.modGate_alike ..)

theorem State.Writable.commitZone (h : s.Writable .zone) (i : Nat) (z : ZoneEntry) :
    s.CommandFrame (s.commitZone i z) c := h.structural rfl rfl

theorem State.Writable.commitSelect (h : s.Writable .select) (i : Nat) (r : SelectRow) :
    s.CommandFrame (s.commitSelect i r) c := h.structural rfl rfl

theorem State.Writable.commitSlot (h : s.Writable .plan) (p st : Nat) (e : PlanSlot) :
    s.CommandFrame (s.commitSlot p st e) c := h.structural rfl rfl

theorem State.Writable.commitCurve (h : s.Writable .curve) (i : Nat) (e : CurveEntry) :
    s.CommandFrame (s.commitCurve i e) c :=
  State.setTables_command (h.imp_right fun ⟨ha, _⟩ => ⟨ha, by constructor <;> rfl⟩) fun cap => cap.sigs

theorem State.setRun_reset_quiet (g : Nat) (s : State) : s.QuietFrame (s.setRun g SigRun.reset) :=
  ((State.EventFrame.refl s).setRun g SigRun.reset fun _ => Nat.zero_le _).quiet

theorem State.Writable.commitSignature (h : s.Writable .signature) (i : Nat) {e : SigEntry} (he : e.persistence ≤ 15) :
    s.CommandFrame (s.commitSignature i e) c := by
  have hset : s.CommandFrame
      (s.setTables { s.tables with signature := s.tables.signature.setIfInBounds i (some e) }) c := by
    refine State.setTables_command (h.imp_right fun ⟨_, hl⟩ => by cases hl) fun cap g e' hg => ?_
    rw [Vector.getElem?_setIfInBounds] at hg
    split at hg
    · split at hg
      · cases hg; exact he
      · cases hg
    · exact cap.sigs g e' hg
  exact hset.quietly rfl (State.setRun_reset_quiet ..)

theorem State.classCommitted_event (i : Nat) (was : Bool) (s : State) : s.EventFrame (s.classCommitted i was) := by
  unfold State.classCommitted
  split
  · split
    · exact ((State.EventFrame.refl s).notifyAt _ _ _ _ _).runEvaluate
    · exact (State.EventFrame.refl s).runEvaluate
  · exact .refl s

theorem State.Writable.commitClass (h : s.Writable .cls) (i : Nat) (e : ClassEntry) :
    s.CommandFrame (s.commitClass i e) c := by
  have hset : s.CommandFrame (s.setTables { s.tables with cls := s.tables.cls.setIfInBounds i e }) c :=
    State.setTables_command (h.imp_right fun ⟨ha, _⟩ => ⟨ha, by constructor <;> rfl⟩) fun cap => cap.sigs
  exact hset.quietly rfl (State.classCommitted_event ..).quiet

theorem State.refl_command (s : State) : s.CommandFrame s c := (State.QuietFrame.refl s).command

theorem commitOr_command {α : Type} {entry : Option α} {commit : α → State → State}
    (h : ∀ e, entry = some e → s.CommandFrame (commit e s) c) : s.CommandFrame (commitOr entry commit s).2 c := by
  cases entry with
  | none => exact s.refl_command
  | some e => exact h e rfl

theorem persistence_of_parseSignature {d : List Byte} {e : SigEntry} (h : parseSignature d = some e) :
    e.persistence ≤ 15 := by
  unfold parseSignature at h
  split at h
  · split at h
    · dsimp only at h
      split at h
      next hranges =>
        cases h
        exact hranges.2.2.2.2.2.2.2.2.2.1
      next => cases h
    · cases h
  · cases h

theorem State.Writable.writeSingle {t : TableId} (h : s.Writable t) (i : Nat) (d : List Byte) :
    s.CommandFrame (s.writeSingle t i d).2 c := by
  unfold State.writeSingle
  split
  · exact commitOr_command fun e _ => h.commitLine e
  · unfold State.writeRoute
    split
    · exact s.refl_command
    · split
      · exact s.refl_command
      · exact h.commitRoute _ _
  · exact s.refl_command
  · exact commitOr_command fun e _ => h.commitCurve _ e
  · exact commitOr_command fun e he => h.commitSignature _ (persistence_of_parseSignature he)
  · exact commitOr_command fun e _ => h.commitClass _ e
  · exact commitOr_command fun e _ => h.commitSelect _ e
  · exact commitOr_command fun e _ => h.commitSlot _ _ e

theorem State.Writable.writeJoined {t : TableId} (h : s.Writable t) (i : Nat) (d₁ d₂ : List Byte) :
    s.CommandFrame (s.writeJoined t i d₁ d₂).2 c := by
  unfold State.writeJoined
  split
  · exact commitOr_command fun e _ => h.commitZone _ e
  · exact commitOr_command fun e _ => h.commitCurve _ e
  · exact s.refl_command

theorem State.Writable.writePart {t : TableId} (h : s.Writable t) (part i : Nat) (d : List Byte) :
    s.CommandFrame (s.writePart t part i d).2 c := by
  unfold State.writePart
  split
  · exact (s.setStaging_alike _).command
  · split
    · unfold State.writeLast
      split
      · split
        · have hempty : (s.setStaging none).Writable t := h
          exact (s.setStaging_alike none).before (hempty.writeJoined ..)
        · exact s.refl_command
      · exact s.refl_command
    · exact h.writeSingle ..

/-- The refusal NOT_LIVE, and the refusal BUSY before it, leave the writable tables alone. -/
theorem State.writable_of_live {t : TableId} (hbusy : s.mgmt.engine ≠ .checking) (hlive : s.notLive t = false) :
    s.Writable t := by
  have hwatch : s.engine ≠ .watch := fun h => by simp [State.notLive, h] at hlive
  have harmed : s.engine = .armed → t.isLive = true := fun h => by simpa [State.notLive, h] using hlive
  unfold State.Writable
  cases hengine : s.mgmt.engine with
  | config => exact .inl rfl
  | checking => exact absurd hengine hbusy
  | armed => exact .inr ⟨rfl, harmed hengine⟩
  | watch => exact absurd hengine hwatch

theorem State.writeTable_command (hbusy : s.mgmt.engine ≠ .checking) (tb idx : Byte) (d : List Byte) :
    s.CommandFrame (s.writeTable tb idx d).2 c := by
  unfold State.writeTable
  split
  · exact s.refl_command
  · split
    · exact s.refl_command
    next hlive =>
      split
      · exact s.refl_command
      · split
        · exact s.refl_command
        · exact (State.writable_of_live hbusy (by simpa using hlive)).writePart ..

end

end Sys2Proof.Machine
end

section
/-! `CommandFrame` of ARM, DISARM, PARK and SOFT_RESET, and the events the other requests serve. -/

namespace Sys2Proof.Machine

/-! ### The other requests -/

section
variable {c : Instr} {s : State}

/-- ARM in CONFIG (R154). -/
theorem State.commandFrame_arm (hconfig : s.mgmt.engine = .config) :
    s.CommandFrame (((s.setStaging none).setEngine .checking).setCheck none) c := by
  have hne : s.mgmt.engine ≠ .armed := by rw [hconfig]; exact Engine.noConfusion
  exact
    { pending := rfl
      clock := fun _ => rfl
      structural := fun _ => .of_eq rfl
      live := fun _ _ => rfl
      engine := .inr (.inl ⟨hconfig, rfl⟩)
      capacities := fun cap => { cap with }
      form := fun f =>
        { check := fun h => rfl
          watch := fun _ => f.watch (by rw [hconfig]; exact Engine.noConfusion)
          silence := f.silence.trans (State.silenceRuns_eq_false hne)
          credit := fun _ => rfl
          racks := fun _ => f.racks hne
          levels := fun _ => f.levels hne }
      queueForm := fun q => q }

theorem State.syncSilence_eq_none {u : State} (h : u.mgmt.engine ≠ .armed) : u.syncSilence = u.setSilence none := by
  unfold State.syncSilence
  rw [State.silenceRuns_eq_false h]
  rfl

theorem State.emptyJournal_event (s : State) : s.EventFrame s.emptyJournal :=
  (State.EventFrame.refl s).setJournal_sub _ (Nat.zero_le _) fun _ h => nomatch h

/-- The step to CONFIG with an empty journal, no level and no deadline (R157, R158). -/
theorem State.disarmed_command (harmed : s.mgmt.engine = .armed) (hlevels : s.levels = []) :
    s.CommandFrame s.disarmed c := by
  have hdrop : s.EventFrame (s.emptyJournal.notify .journalDropped (word s.journal.racks.length) noneHalf noneHalf) :=
    s.emptyJournal_event.notify _ _ _ _
  unfold State.disarmed
  rw [State.syncSilence_eq_none (by exact Engine.noConfusion)]
  exact
    { pending := rfl
      clock := fun _ => rfl
      structural := fun _ => .of_eq rfl
      live := fun _ _ => rfl
      engine := .inr (.inr (.inr (.inr (.inl ⟨harmed, rfl⟩))))
      capacities := fun cap => { hdrop.capacities cap with }
      form := fun f =>
        { check := fun _ => f.check (by rw [harmed]; exact Engine.noConfusion)
          watch := fun _ => f.watch (by rw [harmed]; exact Engine.noConfusion)
          silence := rfl
          credit := fun _ => rfl
          racks := fun _ => rfl
          levels := fun _ => hlevels }
      queueForm := fun q => q }

/-- PARK (R174). -/
theorem State.parked_command (harmed : s.mgmt.engine = .armed) (hracks : s.journal.racks = []) (hlevels : s.levels = [])
    (b : Bool) : s.CommandFrame (s.parked b) c := by
  unfold State.parked
  rw [State.syncSilence_eq_none (by exact Engine.noConfusion)]
  exact
    { pending := rfl
      clock := fun _ => rfl
      structural := fun _ => .of_eq rfl
      live := fun _ _ => rfl
      engine := .inr (.inr (.inr (.inr (.inr (.inl ⟨harmed, rfl, hracks, hlevels⟩)))))
      capacities := fun cap => { cap with }
      form := fun f =>
        { check := fun _ => f.check (by rw [harmed]; exact Engine.noConfusion)
          watch := fun h => absurd rfl h
          silence := rfl
          credit := fun _ => rfl
          racks := fun _ => hracks
          levels := fun _ => hlevels }
      queueForm := fun q => q }

theorem State.clearLatch_event (k : Nat) (s : State) : s.EventFrame (s.clearLatch k) :=
  (State.EventFrame.refl s).setLatch _ _ fun _ => Nat.zero_le _

theorem State.disengage_event (s : State) : s.EventFrame s.disengage :=
  ((State.EventFrame.refl s).notify _ _ _ _).setContain _ fun _ => Nat.zero_le _

theorem State.releaseRetained_event (s : State) : s.EventFrame s.releaseRetained := by
  refine (State.EventFrame.refl s).foldl _ _ fun u i h => ?_
  exact h.gate ((State.GateFrame.refl u).toController i)

theorem replicate_getElem?_getD {α : Type} (n i : Nat) (a : α) : ((Vector.replicate n a)[i]?).getD a = a := by
  rw [Vector.getElem?_replicate]
  split <;> rfl

theorem State.orphanLine_alike (s : State) : s.Alike s.orphanLine := by
  unfold State.orphanLine
  split
  · split
    · exact s.setTrans_alike _
    · exact .refl s
  · exact .refl s

/-- The way of SOFT_RESET to CONFIG from each engine state (R149, R158). -/
theorem State.toConfig_moves {t : State} (ht : t.mgmt.engine = .config) (hw : t.time.watchDeadline = none) :
    t.mgmt.engine = s.mgmt.engine ∨ s.EngineMoves t c := by
  unfold State.EngineMoves
  cases hengine : s.mgmt.engine <;> simp [ht, hw]

theorem State.softReset_command (s : State) : s.CommandFrame s.softReset c := by
  have horphan := s.softStop.orphanLine_alike
  have htables : s.softReset.tables = s.tables := horphan.tables
  exact
    { pending := horphan.pending
      clock := fun _ => horphan.clock
      structural := fun _ => .of_eq htables
      live := fun _ _ => htables
      engine := State.toConfig_moves horphan.engine horphan.watch
      capacities := fun cap =>
        { queue := (List.length_filter_le ..).trans (by rw [horphan.queue]; exact cap.queue)
          notices := Nat.le_of_ble_eq_true rfl
          racks := Nat.zero_le _
          levels := Nat.zero_le _
          misses := fun i hi => by
            show (Vector.replicate 61 0)[i] ≤ 3
            rw [Vector.getElem_replicate]
            exact Nat.zero_le 3
          latches := fun k => by
            show (((Vector.replicate 12 Latch.reset)[k]?).getD Latch.reset).count ≤ 255
            rw [replicate_getElem?_getD]
            exact Nat.zero_le _
          repeats := by
            show s.softStop.orphanLine.contain.repeats ≤ 255
            rw [horphan.contain]
            exact cap.repeats
          credits := fun _ h => nomatch h
          lists := fun _ h => nomatch h
          sigs := by unfold State.sigAt; rw [htables]; exact cap.sigs
          runs := fun g => by
            show (((Vector.replicate 48 SigRun.reset)[g]?).getD SigRun.reset).count ≤ 15
            rw [replicate_getElem?_getD]
            exact Nat.zero_le _ }
      form := fun f =>
        { check := fun _ => horphan.check
          watch := fun _ => horphan.watch
          silence := by
            rw [State.silenceRuns_eq_false (s := s.softReset) (by
              rw [show s.softReset.mgmt.engine = .config from horphan.engine]; exact Engine.noConfusion)]
            exact horphan.silence
          credit := fun _ => horphan.credit
          racks := fun _ => rfl
          levels := fun _ => rfl }
      queueForm := fun hform q hq => by
        have hmem := (List.mem_filter.mp hq).1
        rw [horphan.queue] at hmem
        exact hform q hmem }

end

end Sys2Proof.Machine
end

section
/-! `CommandFrame` of every command but RESET_N, and O4, O5, O7 to O10 from it. -/

namespace Sys2Proof.Machine

section
variable {c : Instr} {s : State}

theorem State.anyLevel_eq_nil {s : State} {b : Bool} (h : ¬ ((!s.levels.isEmpty || b) = true)) : s.levels = [] := by
  simp only [Bool.or_eq_true, not_or, Bool.not_eq_true', Bool.not_eq_false, List.isEmpty_iff] at h
  exact h.1

/-- Every request but TABLE_WRITE in CHECKING, which is refused with BUSY before. -/
theorem State.serve_command (r : Request) (seq : Byte) (args : List Byte)
    (hbusy : r = .tableWrite → s.mgmt.engine ≠ .checking) : s.CommandFrame (s.serve r seq args) c := by
  cases r with
  | status => exact ((s.setSticky_alike _).trans (State.reply_alike ..)).command
  | noticeFetch =>
    show s.CommandFrame (s.serveNoticeFetch seq args) c
    unfold State.serveNoticeFetch
    split
    · exact s.answer_command ..
    next n rest hnotices =>
      have hfetch : s.QuietFrame (s.setNotices rest) :=
        { State.QuietFrame.refl s with
          capacities := fun cap => { cap with
            notices := by have := cap.notices; rw [hnotices, List.length_cons] at this; exact Nat.le_of_succ_le this }
          form := fun f => { f with } }
      exact hfetch.command.answer ..
  | rackRead | tableRead => exact s.answer_command ..
  | latchRead =>
    show s.CommandFrame (s.serveLatchRead seq args) c
    unfold State.serveLatchRead
    dsimp only
    split <;> exact s.answer_command ..
  | channelRead =>
    show s.CommandFrame (s.serveChannelRead seq args) c
    unfold State.serveChannelRead
    dsimp only
    split <;> exact s.answer_command ..
  | levelRead =>
    show s.CommandFrame (s.serveLevelRead seq args) c
    unfold State.serveLevelRead
    dsimp only
    split
    · exact s.answer_command ..
    · split <;> exact s.answer_command ..
  | seqLock | seqUnlock => exact (s.setLock_alike _).command.answer ..
  | tableWrite => exact (State.writeTable_command (hbusy rfl) ..).answer ..
  | arm =>
    show s.CommandFrame (s.serveArm seq args) c
    unfold State.serveArm
    split
    next hconfig => exact (State.commandFrame_arm hconfig).answer ..
    next => exact s.answer_command ..
  | disarm =>
    show s.CommandFrame (s.serveDisarm seq args) c
    unfold State.serveDisarm
    split
    · exact s.answer_command ..
    next harmed =>
      split
      · exact s.answer_command ..
      next hactive => exact (State.disarmed_command (not_not.mp harmed) (State.anyLevel_eq_nil hactive)).answer ..
  | park =>
    show s.CommandFrame (s.servePark seq args) c
    unfold State.servePark
    split
    · exact s.answer_command ..
    next harmed =>
      split
      · exact s.answer_command ..
      next hidle =>
        have hracks : s.journal.racks = [] := by
          simp only [Bool.or_eq_true, not_or, Bool.not_eq_true', Bool.not_eq_false, List.isEmpty_iff] at hidle
          exact hidle.1
        have hlevels : s.levels = [] := State.anyLevel_eq_nil (by rwa [Bool.or_comm] at hidle)
        exact (State.parked_command (not_not.mp harmed) hracks hlevels _).answer ..
  | wake =>
    show s.CommandFrame (s.serveWake seq args) c
    unfold State.serveWake
    split
    next hwatch => exact ((State.EventFrame.refl s).endWatch hwatch hwatch _ _).command.answer ..
    next => exact s.answer_command ..
  | faultClear =>
    show s.CommandFrame (s.serveFaultClear seq args) c
    unfold State.serveFaultClear
    dsimp only
    split
    · split
      · exact (s.clearLatch_event _).command.answer ..
      · exact s.answer_command ..
    · exact s.answer_command ..
  | containClear =>
    show s.CommandFrame (s.serveContainClear seq args) c
    unfold State.serveContainClear
    split
    · split
      · exact s.answer_command ..
      · exact s.disengage_event.command.answer ..
    · exact s.answer_command ..
  | retainRelease => exact s.releaseRetained_event.command.answer ..
  | maskSet => exact (s.setMasks_alike ..).command.answer ..
  | softReset => exact s.softReset_command.answer ..

theorem State.handleRequest_command (r : Request) (seq : Byte) (args : List Byte) (armed : Bool) :
    s.CommandFrame (s.handleRequest r seq args (fun u => u.serve r seq args) armed) c := by
  unfold State.handleRequest
  split
  · exact s.answer_command ..
  · split
    · exact s.answer_command ..
    next hbusy =>
      split
      · exact s.answer_command ..
      · refine State.serve_command r seq args fun hr hchecking => hbusy ?_
        subst hr
        have : s.engine = .checking := hchecking
        simp [this, Request.guarded]

theorem State.handlePart_command (f : Sys2Proof.Frame) (armed : Bool) : s.CommandFrame (s.handlePart f armed) c := by
  unfold State.handlePart
  split
  · exact ((s.setPrefix_alike _).trans (State.mgmtAnswer_alike ..)).command
  · split
    · unfold State.handleMgmt
      split
      · exact (s.answerUnknown_alike ..).command
      · split
        · exact (s.answerUnknown_alike ..).command
        · exact State.handleRequest_command ..
    · exact (s.answerUnknown_alike ..).command

/-! ### A frame on the C-port -/

theorem kind_eq_phase_of_broadcast {f : Sys2Proof.Frame} (hacc : acceptable f = true)
    (hdst : f.dst = Config.broadcastAddress) : f.kind = Kind.phase := by
  have hnode : isNode f.dst = false := by rw [hdst]; rfl
  have hpart : f.dst ≠ Config.partAddress := by rw [hdst]; decide
  simp only [acceptable, hnode, hpart, Bool.and_eq_true, decide_false, Bool.or_false, Bool.false_and,
    Bool.false_or, decide_eq_true_eq] at hacc
  exact hacc.2.2

theorem State.classify_command {f : Sys2Proof.Frame} (hacc : acceptable f = true) (armed : Bool) :
    s.CommandFrame (s.classify f armed) c := by
  unfold State.classify
  split
  next hdst =>
    exact ((s.trackPhase_quiet _).trans
      (State.forwardPhase_quiet (kind_eq_phase_of_broadcast hacc hdst) _)).command
  next =>
    split
    · exact State.handlePart_command ..
    · exact (s.handleNode_quiet f).command

theorem State.receiveC_command (f : Sys2Proof.Frame) : s.CommandFrame (s.receiveC f) c := by
  unfold State.receiveC State.onCPort
  split
  · exact s.setBadC_alike.command
  · split
    · exact s.setOverrun_alike.command
    · split
      · exact s.refl_command
      next hacc =>
        exact (s.accept_alike f).before (State.classify_command (by simpa using hacc) _)

/-- The characters of a frame, whichever port they come on. -/
theorem execMalformedFrame_command {port : Port} {bytes : List Byte} {t : State}
    (h : execMalformedFrame port bytes s = .next t) : s.CommandFrame t c := by
  cases port with
  | cPort =>
    cases h
    unfold State.charsC
    split
    · exact s.setBadC_alike.command
    · exact State.receiveC_command _
  | nPort =>
    cases h
    unfold State.charsN
    split
    · exact ((s.setSticky_alike _).quiet.trans (State.nonReplyEnded_quiet _)).command
    · exact (s.receiveN_quiet _).command

/-- What every command but RESET_N keeps. -/
theorem exec_command {t : State} (hreset : c ≠ .resetN) (h : exec c s = .next t) : s.CommandFrame t c := by
  cases hframe : c.controllerFrame with
  | some f =>
    rw [exec_controllerFrame hframe] at h
    cases h
    exact State.receiveC_command f
  | none =>
    cases c with
    | resetN => exact absurd rfl hreset
    | malformedFrame port bytes => exact execMalformedFrame_command h
    | replySent => cases h; exact s.replyEnded_quiet.command
    | nSendEnd => cases h; exact s.sendEnded_alike.command
    | nodeReply f | stray f => cases h; exact (s.receiveN_quiet f).command
    | miss late =>
      cases late with
      | none => cases h; exact s.timeoutExpires_quiet.command
      | some f => cases h; exact (s.lateFrame_quiet f).command
    | arbiterChoice => cases h; exact s.arbitrate_quiet.command
    | roomListAppend => cases h; exact (State.GateFrame.refl s).fillRoom.quiet.command
    | ageCheck => cases h; exact s.takeAgeCheck_quiet.command
    | creditTick => cases h; exact s.takeCreditTick_quiet.command
    | watchInterval => cases h; exact s.takeWatchInterval_command
    | silenceExpiry => cases h; exact s.takeSilenceExpiry_quiet.command
    | stepDeadline => cases h; exact (State.EventFrame.refl s).deadlineReached.command
    | seqLockExpiry => cases h; exact s.takeLockExpiry_alike.command
    | checkCompletion => cases h; exact s.completeCheck_command
    | lineClockAdvance => cases h; exact s.advanceClock_command
    | replyBeginsToArrive => cases h; exact s.replyBegins_alike.command
    | _ => cases hframe

end

/-! ### RESET_N -/

theorem exec_resetN {s t : State} (h : exec .resetN s = .next t) : t = { State.reset with pending := s.pending } := by
  cases h; rfl

theorem State.reset_capacities : State.reset.Capacities where
  queue := Nat.zero_le _
  notices := Nat.zero_le _
  racks := Nat.zero_le _
  levels := Nat.zero_le _
  misses i hi := by
    show (Vector.replicate 61 0)[i] ≤ 3
    rw [Vector.getElem_replicate]
    exact Nat.zero_le 3
  latches c := by
    show (((Vector.replicate 12 Latch.reset)[c]?).getD Latch.reset).count ≤ 255
    rw [replicate_getElem?_getD]
    exact Nat.zero_le _
  repeats := Nat.zero_le _
  credits _ h := nomatch h
  lists _ h := nomatch h
  sigs g e h := by
    have hnone : ((Vector.replicate 48 (none : Option SigEntry))[g]?).join = some e := h
    rw [Vector.getElem?_replicate] at hnone
    split at hnone <;> cases hnone
  runs g := by
    show (((Vector.replicate 48 SigRun.reset)[g]?).getD SigRun.reset).count ≤ 15
    rw [replicate_getElem?_getD]
    exact Nat.zero_le _

theorem State.reset_form : State.reset.EngineForm := by
  constructor <;> intros <;> rfl

theorem State.reset_queueForm : State.reset.QueueForm := fun _ h => nomatch h

/-- A step is the front command's exec, or nothing. -/
theorem step_cases {s t : State} (h : step s = .next t) :
    t = s ∨ ∃ c rest, s.pending = c :: rest ∧ exec c (s.withPending rest) = .next t := by
  unfold step at h
  split at h
  next => cases h; exact .inl rfl
  next c rest hp => exact .inr ⟨c, rest, hp, h⟩

/-- Settles O4: every command keeps the capacities. -/
theorem stepKeepsCapacities : Obligations.StepKeepsCapacities := by
  intro s t hs hstep
  rcases step_cases hstep with rfl | ⟨c, rest, _, hexec⟩
  · exact hs
  · by_cases hreset : c = .resetN
    · subst hreset
      rw [exec_resetN hexec]
      exact { State.reset_capacities with }
    · exact (exec_command hreset hexec).capacities { hs with }

/-- Settles O5: every command keeps the engine form. -/
theorem stepKeepsEngineForm : Obligations.StepKeepsEngineForm := by
  intro s t hs hstep
  rcases step_cases hstep with rfl | ⟨c, rest, _, hexec⟩
  · exact hs
  · by_cases hreset : c = .resetN
    · subst hreset
      rw [exec_resetN hexec]
      exact { State.reset_form with }
    · exact (exec_command hreset hexec).form { hs with }

/-- Settles O7: the queue of commands is no part of what a command writes. -/
theorem execKeepsTheCommandQueue : Obligations.ExecKeepsTheCommandQueue := by
  intro c s t hexec
  by_cases hreset : c = .resetN
  · subst hreset
    rw [exec_resetN hexec]
  · exact (exec_command hreset hexec).pending

/-- Settles O8: outside CONFIG the refusals NOT_LIVE and BUSY leave only the live tables in ARMED. -/
theorem structuralTablesChangeInConfigAlone : Obligations.StructuralTablesChangeInConfigAlone := by
  intro c s t hreset hconfig hexec
  have hframe := exec_command hreset hexec
  exact ⟨hframe.structural hconfig, hframe.live hconfig⟩

/-- Settles O9: no command but the two writes the clock. -/
theorem otherCommandsKeepTheClock : Obligations.OtherCommandsKeepTheClock := by
  intro c s t hreset hclock hexec
  exact (exec_command hreset hexec).clock hclock

/-- Settles O10: every move of the engine state is one of its table. -/
theorem engineStateFollowsItsTable : Obligations.EngineStateFollowsItsTable := by
  intro c s t hreset hexec hmoved
  exact (exec_command hreset hexec).engine.resolve_left hmoved

end Sys2Proof.Machine
end

section
/-! The one controller transaction (R112 to R114, R123): where the unanswered frame stands through each command, and O6. -/

namespace Sys2Proof.Machine

/-- No controller frame waits for the N-side or is on it. -/
structure State.NoFrameHeld (s : State) : Prop where
  waiting : s.arbiter.waiting = none
  carries : s.carriesController = false

theorem State.carriesController_eq_true_iff {s : State} :
    s.carriesController = true ↔ ∃ x c, s.ports.trans = some x ∧ x.origin = .controller c := by
  unfold State.carriesController
  split
  next c heq => exact iff_of_true rfl ⟨_, _, heq, rfl⟩
  next hno =>
    refine iff_of_false Bool.noConfusion ?_
    rintro ⟨⟨req, o, ms, ti, be, ex⟩, c, hx, rfl⟩
    exact hno _ _ _ _ _ _ hx

theorem State.carriesController_of_trans {s t : State} (h : t.ports.trans = s.ports.trans) :
    t.carriesController = s.carriesController := by
  unfold State.carriesController
  rw [h]

/-- An event may make a plan order an orphan, and moves no other origin. -/
theorem State.EventFrame.carriesController {s t : State} (h : s.EventFrame t) :
    t.carriesController = s.carriesController := by
  cases hx : s.ports.trans with
  | none =>
    have hnone : t.ports.trans = none := by simpa [hx] using h.trans
    exact State.carriesController_of_trans (hnone.trans hx.symm)
  | some x =>
    by_cases hplan : ∃ d st i, x.origin = .plan d st i
    · obtain ⟨d, st, i, ho⟩ := hplan
      rcases h.orphan x d st i hx ho with hsame | horphan
      · exact State.carriesController_of_trans hsame
      · rw [Bool.eq_iff_iff, State.carriesController_eq_true_iff, State.carriesController_eq_true_iff]
        refine iff_of_false ?_ ?_
        · rintro ⟨y, c, hy, hc⟩
          rw [horphan] at hy
          cases hy
          cases hc
        · rintro ⟨y, c, hy, hc⟩
          rw [hx] at hy
          cases hy
          rw [ho] at hc
          cases hc
    · exact State.carriesController_of_trans (h.origin x hx fun d st i ho => hplan ⟨d, st, i, ho⟩)

theorem State.EventFrame.waiting_none {s t : State} (h : s.EventFrame t) (hnone : s.arbiter.waiting = none) :
    t.arbiter.waiting = none ∧ t.ports.cport = s.ports.cport := by
  rcases h.answered with ⟨hcport, hwaiting⟩ | ⟨hsome, _⟩
  · exact ⟨hwaiting.trans hnone, hcport⟩
  · rw [hnone] at hsome; cases hsome

theorem State.NoFrameHeld.event {s t : State} (h : s.NoFrameHeld) (g : s.EventFrame t) : t.NoFrameHeld :=
  ⟨(g.waiting_none h.waiting).1, g.carriesController.trans h.carries⟩

/-- With no frame held the transaction is open only while its reply is on the way, or not at all. -/
theorem State.NoFrameHeld.one {s : State} (h : s.NoFrameHeld) (hcport : s.ports.cport ≠ .waiting) : s.OneTransaction := by
  constructor <;> simp [h.waiting, h.carries, hcport]

theorem State.NoFrameHeld.reply {s : State} (h : s.NoFrameHeld) (f : Sys2Proof.Frame) : (s.reply f).OneTransaction :=
  State.NoFrameHeld.one ⟨h.waiting, h.carries⟩ CPort.noConfusion

theorem State.NoFrameHeld.answer {s : State} (h : s.NoFrameHeld) (r : Request) (seq : Byte) (res : Result)
    (d : List Byte) : (s.answer r seq res d).OneTransaction :=
  State.NoFrameHeld.reply (s := s.setResult res) ⟨h.waiting, h.carries⟩ _

/-- The accepted frame waits for the N-side. -/
theorem State.NoFrameHeld.hold {s : State} (h : s.NoFrameHeld) (hopen : s.ports.cport = .waiting) (c : CtlFrame) :
    (s.setWaiting (some c)).OneTransaction := by
  have hcarries : (s.setWaiting (some c)).carriesController = false := h.carries
  constructor
  · simp [hopen]
  · simp [hcarries]

theorem State.OneTransaction.noFrameHeld {s : State} (h : s.OneTransaction) (hcport : s.ports.cport ≠ .waiting) :
    s.NoFrameHeld := by
  have hnone := fun hor => hcport (h.answered.mpr hor)
  rw [imp_false, not_or, Option.not_isSome_iff_eq_none, Bool.not_eq_true] at hnone
  exact ⟨hnone.1, hnone.2⟩

/-- The transaction is the same where the three places it speaks of are. -/
theorem State.OneTransaction.of_same {s t : State} (h : s.OneTransaction) (hcport : t.ports.cport = s.ports.cport)
    (hwaiting : t.arbiter.waiting = s.arbiter.waiting) (hcarries : t.carriesController = s.carriesController) :
    t.OneTransaction := by
  constructor
  · rw [hcport, hwaiting, hcarries]; exact h.answered
  · rw [hwaiting, hcarries]; exact h.once

theorem State.OneTransaction.event {s t : State} (h : s.OneTransaction) (g : s.EventFrame t) : t.OneTransaction := by
  rcases g.answered with ⟨hcport, hwaiting⟩ | ⟨hsome, hnone, f, hcport⟩
  · exact h.of_same hcport hwaiting g.carriesController
  · have hcarries : s.carriesController = false := by
      rw [← Bool.not_eq_true]
      exact fun hc => h.once ⟨hsome, hc⟩
    exact State.NoFrameHeld.one ⟨hnone, g.carriesController.trans hcarries⟩ (by rw [hcport]; exact CPort.noConfusion)

/-! ### Frames on the C-port -/

/-- The state in which an accepted frame is handled: its transaction is open, and no frame is held. -/
structure State.Opened (s : State) : Prop where
  held  : s.NoFrameHeld
  cport : s.ports.cport = .waiting

theorem State.Opened.event {s t : State} (h : s.Opened) (g : s.EventFrame t) : t.Opened :=
  ⟨h.held.event g, (g.waiting_none h.held.waiting).2.trans h.cport⟩

section
variable {s : State}

theorem State.Opened.letThrough (h : s.Opened) (i : Nat) (f : Sys2Proof.Frame) (v : Half) :
    (s.letThrough i f v).OneTransaction := by
  have hafter := h.event ((State.GateFrame.refl s).supersedeReplay i).event
  exact hafter.held.hold hafter.cport _

theorem State.Opened.convertProtected (h : s.Opened) (i : Nat) (r : RouteEntry) (f : Sys2Proof.Frame) :
    (s.convertProtected i r f).OneTransaction := by
  unfold State.convertProtected
  split
  · exact h.held.reply _
  · exact (h.held.hold h.cport _).of_same rfl rfl rfl

theorem State.Opened.decideOrder (h : s.Opened) (i : Nat) (r : RouteEntry) (f : Sys2Proof.Frame) :
    (s.decideOrder i r f).OneTransaction := by
  unfold State.decideOrder
  dsimp only
  split
  · split
    · exact h.convertProtected ..
    · split
      · exact h.held.reply _
      · split
        · exact State.NoFrameHeld.reply (s := s.holdOrder i f.orderValue) ⟨h.held.waiting, h.held.carries⟩ _
        · exact h.letThrough ..
  · exact h.letThrough ..

theorem State.Opened.handleOrder (h : s.Opened) (f : Sys2Proof.Frame) : (s.handleOrder f).OneTransaction := by
  have hwoken := h.event s.wakeOnOrder_event
  unfold State.handleOrder
  dsimp only
  split
  · split
    · split
      · exact hwoken.decideOrder ..
      · exact hwoken.held.hold hwoken.cport _
    · exact hwoken.held.hold hwoken.cport _
  · exact hwoken.held.hold hwoken.cport _

theorem State.Opened.handlePoll (h : s.Opened) (f : Sys2Proof.Frame) : (s.handlePoll f).OneTransaction := by
  unfold State.handlePoll
  split
  · split
    · unfold State.decidePoll
      split
      · exact h.held.reply _
      · exact h.held.hold h.cport _
    · exact h.held.hold h.cport _
  · exact h.held.hold h.cport _

theorem State.Opened.handleNode (h : s.Opened) (f : Sys2Proof.Frame) : (s.handleNode f).OneTransaction := by
  unfold State.handleNode
  split
  · exact h.handleOrder f
  · split
    · exact h.handlePoll f
    · exact h.held.hold h.cport _

/-- What a request's own rule does before its answer holds no frame. -/
theorem State.NoFrameHeld.same {t : State} (h : s.NoFrameHeld) (hwaiting : t.arbiter.waiting = s.arbiter.waiting)
    (htrans : t.ports.trans = s.ports.trans) : t.NoFrameHeld :=
  ⟨hwaiting.trans h.waiting, (State.carriesController_of_trans htrans).trans h.carries⟩

theorem State.NoFrameHeld.answerAfter {t : State} {r : Request} {seq : Byte} {res : Result} {d : List Byte}
    (h : s.NoFrameHeld) (hwaiting : t.arbiter.waiting = s.arbiter.waiting) (htrans : t.ports.trans = s.ports.trans) :
    (t.answer r seq res d).OneTransaction := (h.same hwaiting htrans).answer ..

theorem State.NoFrameHeld.commitClass (h : s.NoFrameHeld) (i : Nat) (e : ClassEntry) :
    (s.commitClass i e).NoFrameHeld := by
  have hset : (s.setTables { s.tables with cls := s.tables.cls.setIfInBounds i e }).NoFrameHeld :=
    ⟨h.waiting, h.carries⟩
  exact hset.event (State.classCommitted_event ..)

theorem commitOr_held {α : Type} {entry : Option α} {commit : α → State → State} (h : s.NoFrameHeld)
    (hcommit : ∀ e, (commit e s).NoFrameHeld) : (commitOr entry commit s).2.NoFrameHeld := by
  cases entry with
  | none => exact h
  | some e => exact hcommit e

theorem State.NoFrameHeld.writeSingle (h : s.NoFrameHeld) (t : TableId) (i : Nat) (d : List Byte) :
    (s.writeSingle t i d).2.NoFrameHeld := by
  unfold State.writeSingle
  split
  · exact commitOr_held h fun e => ⟨h.waiting, h.carries⟩
  · unfold State.writeRoute
    split
    · exact h
    · split
      · exact h
      · exact ⟨h.waiting, h.carries⟩
  · exact h
  · exact commitOr_held h fun e => ⟨h.waiting, h.carries⟩
  · exact commitOr_held h fun e => ⟨h.waiting, h.carries⟩
  · exact commitOr_held h fun e => h.commitClass i e
  · exact commitOr_held h fun e => ⟨h.waiting, h.carries⟩
  · exact commitOr_held h fun e => ⟨h.waiting, h.carries⟩

theorem State.NoFrameHeld.writeJoined (h : s.NoFrameHeld) (t : TableId) (i : Nat) (d₁ d₂ : List Byte) :
    (s.writeJoined t i d₁ d₂).2.NoFrameHeld := by
  unfold State.writeJoined
  split
  · exact commitOr_held h fun e => ⟨h.waiting, h.carries⟩
  · exact commitOr_held h fun e => ⟨h.waiting, h.carries⟩
  · exact h

theorem State.NoFrameHeld.writeTable (h : s.NoFrameHeld) (tb idx : Byte) (d : List Byte) :
    (s.writeTable tb idx d).2.NoFrameHeld := by
  unfold State.writeTable
  split
  · exact h
  · split
    · exact h
    · split
      · exact h
      · split
        · exact h
        · unfold State.writePart
          split
          · exact ⟨h.waiting, h.carries⟩
          · split
            · unfold State.writeLast
              split
              · split
                · exact State.NoFrameHeld.writeJoined (h.same (t := s.setStaging none) rfl rfl) ..
                · exact h
              · exact h
            · exact h.writeSingle ..

theorem State.NoFrameHeld.orphanLine (h : s.NoFrameHeld) : s.orphanLine.NoFrameHeld := by
  unfold State.orphanLine
  split
  · split
    · exact ⟨h.waiting, rfl⟩
    · exact h
  · exact h

theorem State.NoFrameHeld.softReset (h : s.NoFrameHeld) : s.softReset.NoFrameHeld := by
  have horphan : s.softStop.orphanLine.NoFrameHeld := (h.same (t := s.softStop) rfl rfl).orphanLine
  exact horphan.same rfl rfl

theorem State.NoFrameHeld.syncSilence (h : s.NoFrameHeld) : s.syncSilence.NoFrameHeld := by
  obtain ⟨d, hd⟩ := syncSilence_eq s
  rw [hd]
  exact ⟨h.waiting, h.carries⟩

theorem State.NoFrameHeld.disarmed (h : s.NoFrameHeld) : s.disarmed.NoFrameHeld :=
  State.NoFrameHeld.syncSilence (h.same (t := State.setEngine .config _) rfl rfl)

theorem State.NoFrameHeld.parked (h : s.NoFrameHeld) (b : Bool) : (s.parked b).NoFrameHeld :=
  (State.NoFrameHeld.syncSilence (h.same (t := (s.setTraffic b).setEngine .watch) rfl rfl)).same rfl rfl

theorem State.NoFrameHeld.serve (h : s.NoFrameHeld) (r : Request) (seq : Byte) (args : List Byte) :
    (s.serve r seq args).OneTransaction := by
  cases r with
  | status => exact State.NoFrameHeld.reply (s := s.setSticky Sticky.reset) ⟨h.waiting, h.carries⟩ _
  | noticeFetch =>
    show (s.serveNoticeFetch seq args).OneTransaction
    unfold State.serveNoticeFetch
    split
    · exact h.answer ..
    · exact h.answerAfter rfl rfl
  | rackRead | tableRead => exact h.answer ..
  | latchRead =>
    show (s.serveLatchRead seq args).OneTransaction
    unfold State.serveLatchRead
    dsimp only
    split <;> exact h.answer ..
  | channelRead =>
    show (s.serveChannelRead seq args).OneTransaction
    unfold State.serveChannelRead
    dsimp only
    split <;> exact h.answer ..
  | levelRead =>
    show (s.serveLevelRead seq args).OneTransaction
    unfold State.serveLevelRead
    dsimp only
    split
    · exact h.answer ..
    · split <;> exact h.answer ..
  | seqLock | seqUnlock => exact h.answerAfter rfl rfl
  | tableWrite => exact (h.writeTable ..).answer ..
  | arm =>
    show (s.serveArm seq args).OneTransaction
    unfold State.serveArm
    split
    · exact h.answerAfter rfl rfl
    · exact h.answer ..
  | disarm =>
    show (s.serveDisarm seq args).OneTransaction
    unfold State.serveDisarm
    split
    · exact h.answer ..
    · split
      · exact h.answer ..
      · exact h.disarmed.answer ..
  | park =>
    show (s.servePark seq args).OneTransaction
    unfold State.servePark
    split
    · exact h.answer ..
    · split
      · exact h.answer ..
      · exact (h.parked _).answer ..
  | wake =>
    show (s.serveWake seq args).OneTransaction
    unfold State.serveWake
    split
    next hwatch => exact (h.event ((State.EventFrame.refl s).endWatch hwatch hwatch _ _)).answer ..
    next => exact h.answer ..
  | faultClear =>
    show (s.serveFaultClear seq args).OneTransaction
    unfold State.serveFaultClear
    dsimp only
    split
    · split
      · exact (h.event (s.clearLatch_event _)).answer ..
      · exact h.answer ..
    · exact h.answer ..
  | containClear =>
    show (s.serveContainClear seq args).OneTransaction
    unfold State.serveContainClear
    split
    · split
      · exact h.answer ..
      · exact (h.event s.disengage_event).answer ..
    · exact h.answer ..
  | retainRelease => exact (h.event s.releaseRetained_event).answer ..
  | maskSet => exact h.answerAfter rfl rfl
  | softReset => exact h.softReset.answer ..

theorem State.NoFrameHeld.handlePart (h : s.NoFrameHeld) (f : Sys2Proof.Frame) (armed : Bool) :
    (s.handlePart f armed).OneTransaction := by
  have hunknown (seq e : Byte) : (s.answerUnknown seq e).OneTransaction :=
    State.NoFrameHeld.reply (s := s.setResult .unknown) ⟨h.waiting, h.carries⟩ _
  unfold State.handlePart
  split
  · exact State.NoFrameHeld.reply (s := (s.setPrefix true).setResult .ok) ⟨h.waiting, h.carries⟩ _
  · split
    · unfold State.handleMgmt
      split
      · exact hunknown ..
      · split
        · exact hunknown ..
        · unfold State.handleRequest
          split
          · exact h.answer ..
          · split
            · exact h.answer ..
            · split
              · exact h.answer ..
              · exact h.serve ..
    · exact hunknown ..

theorem State.restartSilence_eq (s : State) : ∃ d, s.restartSilence = s.setSilence d := by
  unfold State.restartSilence
  split
  · exact ⟨_, rfl⟩
  · exact ⟨s.time.silence, rfl⟩

/-- PHASE opens no transaction: its handling touches none of the three places. -/
theorem State.handlePhase_same (f : Sys2Proof.Frame) (s : State) :
    (s.handlePhase f).ports.cport = s.ports.cport ∧ (s.handlePhase f).arbiter.waiting = s.arbiter.waiting ∧
      (s.handlePhase f).ports.trans = s.ports.trans := by
  have htrack : (s.trackPhase f.payload).ports.cport = s.ports.cport ∧
      (s.trackPhase f.payload).arbiter = s.arbiter ∧ (s.trackPhase f.payload).ports.trans = s.ports.trans := by
    unfold State.trackPhase
    split
    · split
      · split
        · exact ⟨rfl, rfl, rfl⟩
        next p _ _ =>
          obtain ⟨d, hd⟩ := syncSilence_eq (s.setPhase p)
          rw [hd]
          exact ⟨rfl, rfl, rfl⟩
      · exact ⟨rfl, rfl, rfl⟩
    · exact ⟨rfl, rfl, rfl⟩
  obtain ⟨hcport, harbiter, htrans⟩ := htrack
  have hwaiting := congrArg Arbiter.waiting harbiter
  unfold State.handlePhase State.forwardPhase
  split <;> exact ⟨hcport, hwaiting, htrans⟩

theorem State.OneTransaction.receiveC (h : s.OneTransaction) (f : Sys2Proof.Frame) : (s.receiveC f).OneTransaction := by
  unfold State.receiveC State.onCPort
  split
  · exact h.of_same rfl rfl rfl
  · split
    · exact h.of_same rfl rfl rfl
    next hidle =>
      have hcport : s.ports.cport = .idle := by simpa [State.cIdle] using hidle
      have hheld := h.noFrameHeld (by rw [hcport]; exact CPort.noConfusion)
      split
      · exact h
      next hacc =>
        have hacc : acceptable f = true := by simpa using hacc
        unfold State.classify
        split
        next hdst =>
          have hkind := kind_eq_phase_of_broadcast hacc hdst
          obtain ⟨d, hd⟩ := s.restartSilence_eq
          have haccept : s.accept f = (s.setSilence d).setPrefix false := by
            unfold State.accept
            rw [if_pos hkind, hd]
          obtain ⟨hsame, hwait, htrans⟩ := (s.accept f).handlePhase_same f
          rw [haccept] at hsame hwait htrans ⊢
          exact h.of_same hsame hwait (State.carriesController_of_trans htrans)
        next hdst =>
          have hkind : f.kind ≠ Kind.phase := by
            intro hphase
            simp [acceptable, hphase] at hacc
            exact hdst hacc.2
          obtain ⟨d, hd⟩ := (s.setCPort .waiting).restartSilence_eq
          have haccept : s.accept f = ((s.setCPort .waiting).setSilence d).setPrefix false := by
            unfold State.accept
            rw [if_neg hkind, hd]
          have hopened : (s.accept f).Opened := by
            rw [haccept]
            exact ⟨⟨hheld.waiting, hheld.carries⟩, rfl⟩
          split
          · exact hopened.held.handlePart ..
          · exact hopened.handleNode f

end

/-! ### The N-port -/

section
variable {s : State}

/-- While the transaction carries a controller frame, that frame's transaction is open and no other waits. -/
theorem State.OneTransaction.of_carried (h : s.OneTransaction) {x : NodeTrans} {c : CtlFrame}
    (htrans : s.ports.trans = some x) (horigin : x.origin = .controller c) :
    s.ports.cport = .waiting ∧ s.arbiter.waiting = none := by
  have hcarries := State.carriesController_eq_true_iff.mpr ⟨x, c, htrans, horigin⟩
  refine ⟨h.answered.mpr (.inr hcarries), ?_⟩
  rw [← Option.not_isSome_iff_eq_none]
  exact fun hsome => h.once ⟨hsome, hcarries⟩

/-- A node transaction ends: after stages 1 to 3, an event, it is over, and the frame it carried is answered. -/
theorem State.OneTransaction.endTrans (h : s.OneTransaction) {u v : State} {x : NodeTrans} (hx : s.ports.trans = some x)
    (g : s.EventFrame u) (hanswered : ∀ c, x.origin = .controller c → ∃ f, v = (u.setTrans none).reply f)
    (hother : (∀ c, x.origin ≠ .controller c) → v = u.setTrans none) : v.OneTransaction := by
  by_cases hcontroller : ∃ c, x.origin = .controller c
  · obtain ⟨c, hc⟩ := hcontroller
    obtain ⟨f, rfl⟩ := hanswered c hc
    exact State.NoFrameHeld.reply (s := u.setTrans none) ⟨(g.waiting_none (h.of_carried hx hc).2).1, rfl⟩ f
  · have hno : ∀ c, x.origin ≠ .controller c := fun c hc => hcontroller ⟨c, hc⟩
    rw [hother hno]
    have hcarries : u.carriesController = false := by
      rw [g.carriesController, ← Bool.not_eq_true, State.carriesController_eq_true_iff]
      rintro ⟨y, c, hy, hc⟩
      rw [hx] at hy
      cases hy
      exact hno c hc
    exact (h.event g).of_same rfl rfl hcarries.symm

theorem State.setMisses_event (node : Byte) {n : Nat} (hn : n ≤ 3) (s : State) : s.EventFrame (s.setMisses node n) :=
  { s.setMisses_quiet node hn with
    phase := rfl
    sending := rfl
    mgmt := rfl
    trans := rfl
    origin := fun _ _ _ => rfl
    orphan := fun _ _ _ _ _ _ => .inl rfl
    answered := .inl ⟨rfl, rfl⟩ }

theorem State.countMiss_event (node : Byte) (s : State) : s.EventFrame (s.countMiss node) := by
  have hcount := s.setMisses_event node (Nat.min_le_left 3 (s.missesAt node + 1))
  unfold State.countMiss
  dsimp only
  split
  · exact hcount.raise _ _
  · exact hcount

theorem State.OneTransaction.endWithReply (h : s.OneTransaction) {x : NodeTrans} (hx : s.ports.trans = some x)
    (f : Sys2Proof.Frame) : (s.endWithReply x f).OneTransaction := by
  refine h.endTrans hx (((s.setMisses_event x.req.dst (Nat.zero_le 3)).trans' (State.imageTakesReply_event x f _)).trans'
    (State.originEnded_event (replyEnd f) _)) (fun c hc => ?_) fun hno => ?_
  · unfold State.endWithReply State.upstreamReply State.forwardReply
    rw [hc]
    dsimp only
    split <;> exact ⟨_, rfl⟩
  · unfold State.endWithReply State.upstreamReply
    split
    next c hc => exact absurd hc (hno c)
    next => rfl

theorem State.OneTransaction.endWithMiss (h : s.OneTransaction) {x : NodeTrans} (hx : s.ports.trans = some x) :
    (s.endWithMiss x).OneTransaction := by
  refine h.endTrans hx (((s.countMiss_event x.req.dst).trans' (State.imageTakesMiss_event x _)).trans'
    (State.originEnded_event .noReply _)) (fun c hc => ?_) fun hno => ?_
  · unfold State.endWithMiss State.upstreamMiss State.missReply
    rw [hc]
    dsimp only
    split <;> exact ⟨_, rfl⟩
  · unfold State.endWithMiss State.upstreamMiss
    split
    next c hc => exact absurd hc (hno c)
    next => rfl

/-- The marks of the open transaction are no part of the controller transaction. -/
theorem State.OneTransaction.setTrans (h : s.OneTransaction) {x y : NodeTrans} (hx : s.ports.trans = some x)
    (horigin : y.origin = x.origin) : (s.setTrans (some y)).OneTransaction := by
  refine h.of_same rfl rfl ?_
  rw [Bool.eq_iff_iff, State.carriesController_eq_true_iff, State.carriesController_eq_true_iff]
  simp only [State.setTrans_ports_trans, Option.some.injEq, hx, exists_and_left, exists_eq_left', horigin]

theorem State.OneTransaction.nonReplyEnded (h : s.OneTransaction) : s.nonReplyEnded.OneTransaction := by
  unfold State.nonReplyEnded
  split
  · exact h
  next x hx =>
    split
    · exact h.endWithMiss hx
    · exact h.setTrans hx rfl

theorem State.OneTransaction.receiveN (h : s.OneTransaction) (f : Sys2Proof.Frame) : (s.receiveN f).OneTransaction := by
  have hbad : s.setBadN.OneTransaction := h.of_same rfl rfl rfl
  have hstray : s.setStray.OneTransaction := h.of_same rfl rfl rfl
  unfold State.receiveN
  split
  · exact hbad.nonReplyEnded
  · split
    · exact hstray
    next x hx =>
      split
      · exact h.endWithReply hx f
      · exact hstray.nonReplyEnded

theorem State.OneTransaction.timeoutExpires (h : s.OneTransaction) : s.timeoutExpires.OneTransaction := by
  unfold State.timeoutExpires
  split
  · exact h
  next x hx =>
    split
    · split
      · exact h.setTrans hx rfl
      · exact h.endWithMiss hx
    · exact h

theorem State.OneTransaction.lateFrame (h : s.OneTransaction) (f : Sys2Proof.Frame) :
    (s.lateFrame f).OneTransaction := by
  unfold State.lateFrame
  split
  next x hx =>
    refine State.OneTransaction.receiveN ?_ f
    split
    · exact h.setTrans hx rfl
    · exact h
  next => exact h.receiveN f

/-! ### The arbiter -/

/-- A frame leaves with the origin it was given, whatever the departure rule makes of it. -/
theorem State.depart_transaction (f : Sys2Proof.Frame) (o : Origin) (s : State) :
    (s.depart f o).ports.cport = s.ports.cport ∧ (s.depart f o).arbiter = s.arbiter ∧
      ∃ x, (s.depart f o).ports.trans = some x ∧ x.origin = o := by
  unfold State.depart
  split
  · split
    · split
      · split <;> exact ⟨rfl, rfl, _, rfl, rfl⟩
      · exact ⟨rfl, rfl, _, rfl, rfl⟩
    · exact ⟨rfl, rfl, _, rfl, rfl⟩
  · exact ⟨rfl, rfl, _, rfl, rfl⟩

theorem State.clearDeferred_ports (s : State) : s.clearDeferred.ports = s.ports ∧ s.clearDeferred.arbiter = s.arbiter := by
  unfold State.clearDeferred
  generalize List.range Config.routes = l
  induction l generalizing s with
  | nil => exact ⟨rfl, rfl⟩
  | cons i l ih => exact ih _

/-- A frame of the part's own is on the line, and the controller transaction is where it was. -/
theorem State.OneTransaction.sendOwn (h : s.OneTransaction) {t : State} (hfree : s.ports.trans = none)
    (hcport : t.ports.cport = s.ports.cport) (hwaiting : t.arbiter.waiting = s.arbiter.waiting)
    (htrans : ∀ x c, t.ports.trans = some x → x.origin ≠ .controller c) : t.OneTransaction := by
  refine h.of_same hcport hwaiting ?_
  rw [Bool.eq_iff_iff, State.carriesController_eq_true_iff, State.carriesController_eq_true_iff]
  refine iff_of_false ?_ ?_
  · rintro ⟨x, c, hx, hc⟩
    exact htrans x c hx hc
  · rintro ⟨x, c, hx, _⟩
    rw [hfree] at hx
    cases hx

theorem State.OneTransaction.sendForceOff (h : s.OneTransaction) (hfree : s.ports.trans = none) (i : Nat) :
    (s.sendForceOff i).OneTransaction := by
  unfold State.sendForceOff
  split
  · refine h.sendOwn hfree rfl rfl fun x c hx => ?_
    cases hx
    exact Origin.noConfusion
  · exact h

theorem State.OneTransaction.sendController (h : s.OneTransaction) {c : CtlFrame}
    (hwaits : s.arbiter.waiting = some c) : (s.sendController c).OneTransaction := by
  have hopen : s.ports.cport = .waiting := h.answered.mpr (.inl (by rw [hwaits]; rfl))
  unfold State.sendController
  obtain ⟨hports, harbiter⟩ := State.clearDeferred_ports ((s.setWaiting none).setServed .controller)
  obtain ⟨hcport, hwaiting, x, hx, ho⟩ := State.depart_transaction c.outgoing (.controller c)
    ((s.setWaiting none).setServed .controller).clearDeferred
  generalize State.depart .. = t at hcport hwaiting hx
  have hcarries : t.carriesController = true := State.carriesController_eq_true_iff.mpr ⟨x, c, hx, ho⟩
  have hnone : t.arbiter.waiting = none := by rw [hwaiting, harbiter]; rfl
  have hstill : t.ports.cport = .waiting := by rw [hcport, hports]; exact hopen
  constructor <;> simp [hcarries, hnone, hstill]

theorem State.OneTransaction.sendInjected (h : s.OneTransaction) (hfree : s.ports.trans = none) {q : QFrame}
    (hq : ∀ c, q.origin ≠ .controller c) : (s.sendInjected q).OneTransaction := by
  have hfill := h.event s.queueTail_frame.fillRoom.event
  have hgate := s.queueTail_frame.fillRoom
  have htrans : (s.setQueue s.arbiter.queue.tail).fillRoom.ports.trans = none := hgate.trans.trans hfree
  obtain ⟨hports, harbiter⟩ :=
    State.clearDeferred_ports (((s.setQueue s.arbiter.queue.tail).fillRoom).setServed .injected)
  unfold State.sendInjected
  dsimp only
  generalize State.clearDeferred _ = u at hports harbiter ⊢
  split
  · refine hfill.sendOwn htrans ?_ ?_ fun x c hx => ?_
    · rw [State.setSending_ports_cport, hports]; rfl
    · rw [State.setSending_arbiter, harbiter]; rfl
    · rw [State.setSending_ports_trans, hports] at hx
      have : some x = none := hx.symm.trans htrans
      cases this
  · obtain ⟨hcport, hwaiting, x, hx, ho⟩ := State.depart_transaction q.frame q.origin u
    refine hfill.sendOwn htrans ?_ ?_ fun y c hy => ?_
    · rw [hcport, hports]; rfl
    · rw [hwaiting, harbiter]; rfl
    · rw [hx] at hy
      cases hy
      rw [ho]
      exact hq c

theorem State.chooseFrame_mem {c : Choice} (h : s.chooseFrame = some c) :
    (∃ f, c = .controller f ∧ s.arbiter.waiting = some f) ∨ ∃ q, c = .injected q ∧ s.arbiter.queue.head? = some q := by
  have hctl : s.arbiter.waiting.map Choice.controller = some c →
      ∃ f, c = .controller f ∧ s.arbiter.waiting = some f := fun hmap => by
    obtain ⟨f, hf, rfl⟩ := Option.map_eq_some_iff.mp hmap
    exact ⟨f, rfl, hf⟩
  have hinj : s.arbiter.queue.head?.map Choice.injected = some c →
      ∃ q, c = .injected q ∧ s.arbiter.queue.head? = some q := fun hmap => by
    obtain ⟨q, hq, rfl⟩ := Option.map_eq_some_iff.mp hmap
    exact ⟨q, rfl, hq⟩
  unfold State.chooseFrame at h
  dsimp only at h
  split at h
  · exact .inl (hctl h)
  · split at h
    · exact .inr (hinj h)
    · split at h <;> rcases Option.or_eq_some_iff.mp h with h | ⟨_, h⟩
      · exact .inl (hctl h)
      · exact .inr (hinj h)
      · exact .inr (hinj h)
      · exact .inl (hctl h)

/-- What the arbiter chooses: a force-off that is due, the waiting controller frame or the head of the queue. -/
theorem State.choose_mem {c : Choice} (h : s.choose = some c) :
    (∃ i d, c = .forceOff i ∧ s.dueForceOff d = some i) ∨ (∃ f, c = .controller f ∧ s.arbiter.waiting = some f) ∨
      ∃ q, c = .injected q ∧ s.arbiter.queue.head? = some q := by
  unfold State.choose at h
  rcases Option.or_eq_some_iff.mp h with h | ⟨_, h⟩
  · obtain ⟨i, hi, rfl⟩ := Option.map_eq_some_iff.mp h
    exact .inl ⟨i, _, rfl, hi⟩
  · rcases Option.or_eq_some_iff.mp h with h | ⟨_, h⟩
    · exact .inr (State.chooseFrame_mem h)
    · obtain ⟨i, hi, rfl⟩ := Option.map_eq_some_iff.mp h
      exact .inl ⟨i, _, rfl, hi⟩

theorem State.nFree_iff : s.nFree = true ↔ s.ports.trans = none ∧ s.ports.sending = none := by
  simp [State.nFree]

theorem State.OneTransaction.arbitrate (h : s.OneTransaction) (hform : s.QueueForm) : s.arbitrate.OneTransaction := by
  unfold State.arbitrate
  split
  next hfree =>
    obtain ⟨htrans, _⟩ := State.nFree_iff.mp hfree
    split
    next c hc =>
      rcases State.choose_mem hc with ⟨i, _, rfl, _⟩ | ⟨f, rfl, hf⟩ | ⟨q, rfl, hq⟩
      · exact h.sendForceOff htrans i
      · exact h.sendController hf
      · exact h.sendInjected htrans (hform q (List.mem_of_mem_head? hq)).2
    next => exact h
  next => exact h

end

/-! ### Every command -/

theorem State.OneTransaction.beginCheck {s : State} (h : s.OneTransaction) : s.beginCheck.OneTransaction := by
  unfold State.beginCheck
  split
  · exact h.of_same rfl rfl rfl
  · exact h

theorem State.OneTransaction.replyEnded {s : State} (h : s.OneTransaction) : s.replyEnded.OneTransaction := by
  unfold State.replyEnded
  split
  next f hf =>
    have hheld := h.noFrameHeld (by rw [hf]; exact CPort.noConfusion)
    have hidle : (s.setCPort .idle).OneTransaction :=
      State.NoFrameHeld.one ⟨hheld.waiting, hheld.carries⟩ CPort.noConfusion
    exact hidle.beginCheck
  next => exact h

theorem State.OneTransaction.sendEnded {s : State} (h : s.OneTransaction) : s.sendEnded.OneTransaction := by
  unfold State.sendEnded
  split
  · exact h
  · have hgone : (s.setSending none).OneTransaction := h.of_same rfl rfl rfl
    dsimp only
    split
    next x hx => exact hgone.setTrans hx rfl
    next => exact hgone

theorem State.OneTransaction.replyBegins {s : State} (h : s.OneTransaction) : s.replyBegins.OneTransaction := by
  unfold State.replyBegins
  split
  next x hx => exact h.setTrans hx rfl
  next => exact h

theorem State.OneTransaction.completeCheck {s : State} (h : s.OneTransaction) : s.completeCheck.OneTransaction := by
  unfold State.completeCheck
  split
  · split
    · obtain ⟨d, hrun⟩ := State.enterArmed_event (((((s.setCheck none).setDetail CheckDetail.pass).notify .checkDone 0
        noneHalf noneHalf).setEngine .armed))
      have hbefore : State.OneTransaction ((((((s.setCheck none).setDetail CheckDetail.pass).notify .checkDone 0
        noneHalf noneHalf).setEngine .armed)).setSilence d) := h.of_same rfl rfl rfl
      exact hbefore.event hrun
    · exact h.of_same rfl rfl rfl
  · exact h

theorem State.OneTransaction.takeSilenceExpiry {s : State} (h : s.OneTransaction) :
    s.takeSilenceExpiry.OneTransaction := by
  unfold State.takeSilenceExpiry
  split
  · exact (h.event ((State.EventFrame.refl s).raise _ _)).of_same rfl rfl rfl
  · exact h

theorem State.OneTransaction.takeAgeCheck {s : State} (h : s.OneTransaction) : s.takeAgeCheck.OneTransaction := by
  unfold State.takeAgeCheck
  split
  · have hmark : (s.setAgeDue false).OneTransaction := h.of_same rfl rfl rfl
    exact hmark.event (State.EventFrame.refl _).ageAll
  · exact h

theorem State.OneTransaction.takeCreditTick {s : State} (h : s.OneTransaction) : s.takeCreditTick.OneTransaction := by
  unfold State.takeCreditTick
  split
  · exact h.of_same rfl rfl rfl
  · exact h

theorem State.OneTransaction.takeWatchInterval {s : State} (h : s.OneTransaction) :
    s.takeWatchInterval.OneTransaction := by
  unfold State.takeWatchInterval
  split
  · have hset : (s.setWatch s.nextWatch).OneTransaction := h.of_same rfl rfl rfl
    exact hset.event ((State.EventFrame.refl _).foldl _ _ fun _ i g => g.offerWatchPoll i)
  · exact h

theorem State.OneTransaction.takeLockExpiry {s : State} (h : s.OneTransaction) : s.takeLockExpiry.OneTransaction := by
  unfold State.takeLockExpiry
  split
  · exact h.of_same rfl rfl rfl
  · exact h

theorem State.OneTransaction.malformedFrame {s t : State} (h : s.OneTransaction) {port : Port} {bytes : List Byte}
    (hexec : execMalformedFrame port bytes s = .next t) : t.OneTransaction := by
  cases port with
  | cPort =>
    cases hexec
    unfold State.charsC
    split
    · exact h.of_same rfl rfl rfl
    · exact h.receiveC _
  | nPort =>
    cases hexec
    unfold State.charsN
    split
    · have hbad : s.setBadN.OneTransaction := h.of_same rfl rfl rfl
      exact hbad.nonReplyEnded
    · exact h.receiveN _

theorem State.reset_oneTransaction : State.reset.OneTransaction :=
  State.NoFrameHeld.one ⟨rfl, rfl⟩ CPort.noConfusion

theorem exec_oneTransaction {c : Instr} {s t : State} (hform : s.QueueForm) (h : s.OneTransaction)
    (hexec : exec c s = .next t) : t.OneTransaction := by
  cases hframe : c.controllerFrame with
  | some f =>
    rw [exec_controllerFrame hframe] at hexec
    cases hexec
    exact h.receiveC f
  | none =>
    cases c with
    | resetN =>
      rw [exec_resetN hexec]
      exact State.reset_oneTransaction.of_same rfl rfl rfl
    | malformedFrame port bytes => exact h.malformedFrame hexec
    | replySent => cases hexec; exact h.replyEnded
    | nSendEnd => cases hexec; exact h.sendEnded
    | nodeReply f | stray f => cases hexec; exact h.receiveN f
    | miss late =>
      cases late with
      | none => cases hexec; exact h.timeoutExpires
      | some f => cases hexec; exact h.lateFrame f
    | arbiterChoice => cases hexec; exact h.arbitrate hform
    | roomListAppend => cases hexec; exact h.event (State.GateFrame.refl s).fillRoom.event
    | ageCheck => cases hexec; exact h.takeAgeCheck
    | creditTick => cases hexec; exact h.takeCreditTick
    | watchInterval => cases hexec; exact h.takeWatchInterval
    | silenceExpiry => cases hexec; exact h.takeSilenceExpiry
    | stepDeadline => cases hexec; exact h.event (State.EventFrame.refl s).deadlineReached
    | seqLockExpiry => cases hexec; exact h.takeLockExpiry
    | checkCompletion => cases hexec; exact h.completeCheck
    | lineClockAdvance => cases hexec; exact h.of_same rfl rfl rfl
    | replyBeginsToArrive => cases hexec; exact h.replyBegins
    | _ => cases hframe

/-- Settles O6: the queue's origins by `CommandFrame`, the controller transaction command by command. -/
theorem stepKeepsOneTransaction : Obligations.StepKeepsOneTransaction := by
  intro s t hform hstep
  rcases step_cases hstep with rfl | ⟨c, rest, _, hexec⟩
  · exact ⟨hform, id⟩
  · refine ⟨?_, fun hone => exec_oneTransaction (s := s.withPending rest) hform (hone.of_same rfl rfl rfl) hexec⟩
    by_cases hreset : c = .resetN
    · subst hreset
      rw [exec_resetN hexec]
      exact State.reset_queueForm
    · exact (exec_command hreset hexec).queueForm hform

end Sys2Proof.Machine
end

section
/-! The departure rule under containment (R133) and O11 from it. -/

namespace Sys2Proof.Machine

theorem State.findRoute_of_tables {s t : State} (h : t.tables = s.tables) (node chan : Byte) :
    t.findRoute node chan = s.findRoute node chan := by
  unfold State.findRoute State.routeAt
  rw [h]

theorem orderValue_orderPayload {f : Sys2Proof.Frame} {chan : Byte} {v : Half} (h : f.payload = orderPayload chan v) :
    f.orderValue = v := by
  simp only [Frame.orderValue, h, orderPayload, bytes2, List.getD_cons_succ, List.getD_cons_zero, half_bytes]

/-- Under containment the departure rule sends a heater's ORDER as 0. -/
theorem State.depart_heater_zero {s : State} {f g : Sys2Proof.Frame} {o : Origin} {i : Nat} {r : RouteEntry}
    (hengaged : s.contain.engaged = true) (hopaque : o.transparent = false)
    (hsent : (s.depart f o).ports.sending = some g) (horder : g.isOrder = true)
    (hroute : s.findRoute g.dst g.chan = some (i, r)) (hheater : r.kind = .heater) : g.orderValue = 0 := by
  have hplain : ∀ {u : State}, (u.openTrans f o).ports.sending = some g → f = g := fun h => Option.some.inj h
  unfold State.depart at hsent
  split at hsent
  next =>
    split at hsent
    next j q hfound =>
      split at hsent
      next hkind =>
        obtain rfl : withValue f 0 = g := Option.some.inj hsent
        exact orderValue_orderPayload rfl
      next hkind =>
        obtain rfl := hplain hsent
        rw [hfound] at hroute
        cases hroute
        exact absurd hheater hkind
    next hnone =>
      obtain rfl := hplain hsent
      rw [hnone] at hroute
      cases hroute
  next hnot =>
    obtain rfl := hplain hsent
    exact absurd ⟨horder, hopaque⟩ hnot

theorem Origin.transparent_eq_false {o : Origin} (h : ∀ c, o = .controller c → c.kind ≠ .transparent) :
    o.transparent = false := by
  unfold Origin.transparent
  split
  · exact absurd rfl (h _ rfl)
  · rfl

theorem State.clearDeferred_tables (s : State) :
    s.clearDeferred.tables = s.tables ∧ s.clearDeferred.contain = s.contain :=
  ⟨s.clearDeferred_alike.tables, s.clearDeferred_alike.contain⟩

theorem isOrder_eq_false_of_phase {f : Sys2Proof.Frame} (h : f.kind = Kind.phase) : f.isOrder = false := by
  simp [Frame.isOrder, h]

/-- Settles O11: each kind of choice sends its frame under the departure rule, or as a force-off of 0. -/
theorem heaterOrdersLeaveAsZero : Obligations.HeaterOrdersLeaveAsZero := by
  intro s t f i r hform hengaged hopaque hidle hexec hsent horder hroute hheater
  cases hexec
  have hsilent : s.ports.sending ≠ some f := by rw [hidle]; exact (Option.some_ne_none f).symm
  unfold State.arbitrate at hsent
  split at hsent
  next =>
    split at hsent
    next c hc =>
      rcases State.choose_mem hc with ⟨j, _, rfl, _⟩ | ⟨w, rfl, hw⟩ | ⟨q, rfl, hq⟩
      · simp only [State.sendChoice, State.sendForceOff] at hsent
        split at hsent
        · cases hsent
          exact orderValue_orderPayload rfl
        · exact absurd hsent hsilent
      · obtain ⟨htables, hcontain⟩ := State.clearDeferred_tables ((s.setWaiting none).setServed .controller)
        refine State.depart_heater_zero (by rw [hcontain]; exact hengaged)
          (Origin.transparent_eq_false fun c hcw => ?_) hsent horder
          ((State.findRoute_of_tables htables ..).trans hroute) hheater
        cases hcw
        exact hopaque w hw
      · obtain ⟨hphase, hown⟩ := hform q (List.mem_of_mem_head? hq)
        have hfill := s.queueTail_frame.fillRoom
        obtain ⟨htables, hcontain⟩ :=
          State.clearDeferred_tables (((s.setQueue s.arbiter.queue.tail).fillRoom).setServed .injected)
        simp only [State.sendChoice, State.sendInjected] at hsent
        split at hsent
        next ho =>
          cases hsent
          rw [isOrder_eq_false_of_phase (hphase.mp ho)] at horder
          cases horder
        next =>
          exact State.depart_heater_zero (by rw [hcontain]; exact hfill.contain ▸ hengaged)
            (Origin.transparent_eq_false fun c hcq => absurd hcq (hown c)) hsent horder
            ((State.findRoute_of_tables (htables.trans hfill.tables) ..).trans hroute) hheater
    next => exact absurd hsent hsilent
  next => exact absurd hsent hsilent

end Sys2Proof.Machine
end

section
/-! One step, RESET_N, the tank deadlines, the cap in force and frames on the wire: O1, O2, O3, O12, O20 and O26. -/

namespace Sys2Proof.Machine

/-- Settles O1: the two cases of the queue. -/
theorem stepRunsTheFrontCommand : Obligations.StepRunsTheFrontCommand := by
  refine ⟨fun s c rest hpending => ?_, fun s hpending => ?_⟩
  · simp only [step, hpending, State.withPending]
  · simp only [step, hpending]

/-! ### The state after reset -/

theorem replicate_none_join {α : Type} (n i : Nat) : ((Vector.replicate n (none : Option α))[i]?).join = none := by
  rw [Vector.getElem?_replicate]
  split <;> rfl

theorem State.reset_planSlot (p st : Nat) : State.reset.planSlot p st = none := by
  unfold State.planSlot
  split
  · exact replicate_none_join 288 _
  · rfl

theorem State.reset_selectCell (c : Nat) (ph : Phase) : State.reset.selectCell c ph = none := by
  have hrow : (State.reset.tables.select[c]?).join = none := replicate_none_join 12 c
  simp only [State.selectCell, hrow]

theorem State.reset_classAt {c : Nat} (hc : c < 12) :
    State.reset.classAt c = { enable := true, watch := false, ignored := 0 } := by
  have hcell : State.reset.tables.cls[c]? = some { enable := true, watch := false, ignored := 0 } := by
    simp [State.reset, Tables.reset, hc]
  simp only [State.classAt, hcell, Option.getD_some]

/-- Settles O2: every block's reset value, entry by entry. -/
theorem resetNGivesPowerOnValues : Obligations.ResetNGivesPowerOnValues := by
  intro s
  refine ⟨_, rfl, rfl, rfl, rfl, rfl, rfl, rfl, rfl, fun i => replicate_none_join 64 i, fun z => replicate_none_join 8 z,
    fun c => replicate_none_join 8 c, fun g => replicate_none_join 48 g, State.reset_planSlot, State.reset_selectCell,
    fun c hc => ?_, fun c => replicate_getElem?_getD 12 c _, rfl, rfl, rfl, rfl, rfl, rfl, rfl,
    fun i => replicate_getElem?_getD 64 i _, fun g => replicate_getElem?_getD 48 g _,
    fun i => replicate_getElem?_getD 64 i _, rfl, rfl, rfl, rfl, fun n => replicate_getElem?_getD 61 n.toNat 0, rfl, rfl,
    rfl, rfl, rfl, rfl, rfl, rfl⟩
  have hcell := State.reset_classAt hc
  exact ⟨congrArg ClassEntry.enable hcell, congrArg ClassEntry.watch hcell⟩

/-- Settles O3: the four invariants of the reset state. -/
theorem resetHasTheInvariants : Obligations.ResetHasTheInvariants :=
  ⟨State.reset_capacities, State.reset_form, State.reset_oneTransaction, State.reset_queueForm⟩

/-! ### Tank deadlines (R43, R44) -/

/-- Settles O20: the three cases of the deadline, and the bounds of its seconds. -/
theorem tankDeadlines : Obligations.TankDeadlines := by
  intro now volume rate offset timeout
  refine ⟨fun hrate => ?_, fun hrate htimeout => ?_, fun hrate htimeout => ?_, fun hv hv' hr hr' ho => ⟨?_, ?_⟩⟩
  · exact if_pos (Nat.pos_iff_ne_zero.mp hrate)
  · simp [tankDeadline, hrate, htimeout]
  · simp [tankDeadline, hrate, htimeout, tenths]
  · have := Nat.mul_le_mul hv hr
    omega
  · have := Nat.mul_le_mul hv' hr'
    omega

/-! ### The cap in force (R89) -/

theorem minCap_eq_none_iff (ls : List Level) : minCap ls = none ↔ ∀ l ∈ ls, l.cap = none := by
  induction ls with
  | nil => simp [minCap]
  | cons l ls ih =>
    rw [List.forall_mem_cons, ← ih]
    cases hcap : l.cap <;> cases hrest : minCap ls <;> simp [minCap, hcap, hrest]

theorem minCap_eq_some_iff (ls : List Level) (n : Nat) :
    minCap ls = some n ↔ (∃ l ∈ ls, l.cap = some n) ∧ ∀ l ∈ ls, ∀ m, l.cap = some m → n ≤ m := by
  induction ls generalizing n with
  | nil => simp [minCap]
  | cons l ls ih =>
    rw [List.exists_mem_cons_iff, List.forall_mem_cons]
    cases hcap : l.cap with
    | none =>
      have hskip : minCap (l :: ls) = minCap ls := by simp only [minCap, hcap]
      simp [hskip, ih]
    | some c =>
      cases hrest : minCap ls with
      | none =>
        have hnone := (minCap_eq_none_iff ls).mp hrest
        have hfirst : minCap (l :: ls) = some c := by simp only [minCap, hcap, hrest]
        rw [hfirst]
        constructor
        · rintro ⟨⟩
          exact ⟨.inl rfl, by rintro m ⟨⟩; exact le_rfl, fun l' hl' m hm => by rw [hnone l' hl'] at hm; cases hm⟩
        · rintro ⟨hfound | ⟨l', hl', hl''⟩, _⟩
          · exact hfound
          · rw [hnone l' hl'] at hl''; cases hl''
      | some d =>
        obtain ⟨⟨k, hk, hkd⟩, hleast⟩ := (ih d).mp hrest
        have hmin : minCap (l :: ls) = some (min c d) := by simp only [minCap, hcap, hrest]
        rw [hmin, Option.some.injEq]
        constructor
        · rintro rfl
          refine ⟨?_, by rintro m ⟨⟩; exact min_le_left c d, fun l' hl' m hm => (min_le_right c d).trans (hleast l' hl' m hm)⟩
          rcases min_choice c d with h | h
          · exact .inl (by rw [h])
          · exact .inr ⟨k, hk, by rw [h, hkd]⟩
        · rintro ⟨hfound, hfirst, hothers⟩
          refine le_antisymm ?_ (le_min (hfirst c rfl) (hothers k hk d hkd))
          rcases hfound with hfound | ⟨l', hl', hl''⟩
          · obtain rfl : c = n := Option.some.inj hfound
            exact min_le_left c d
          · exact (min_le_right c d).trans (hleast l' hl' n hl'')

/-- Settles O26: the recursion over the levels keeps the smallest cap. -/
theorem capInForceIsTheSmallest : Obligations.CapInForceIsTheSmallest :=
  fun s => ⟨minCap_eq_none_iff s.levels, minCap_eq_some_iff s.levels⟩

/-! ### Frames on the wire (R110, R163) -/

theorem frameBody_length (f : Sys2Proof.Frame) : (frameBody f).length = 5 + f.payload.length := by
  simp only [frameBody, List.length_cons]
  omega

theorem encodeFrame_length (f : Sys2Proof.Frame) : (encodeFrame f).length = 5 + f.payload.length + 2 := by
  rw [encodeFrame, List.length_append, frameBody_length]
  rfl

/-- The eight bits of byte 2, over all its values. -/
theorem kindByte_bits : ∀ (kind : BitVec 4) (attn rewritten image engine : Bool),
    let k := kindByte kind ⟨attn, rewritten, image, engine⟩
    k.extractLsb' 4 4 = kind ∧ k.getLsbD 3 = attn ∧ k.getLsbD 2 = rewritten ∧ k.getLsbD 1 = image ∧
      k.getLsbD 0 = engine := by
  decide

theorem readBody_frameBody (f : Sys2Proof.Frame) : readBody (frameBody f) = some f := by
  obtain ⟨hkind, hattn, hrewritten, himage, hengine⟩ :=
    kindByte_bits f.kind f.flags.attn f.flags.rewritten f.flags.image f.flags.engine
  simp only [frameBody, readBody, hkind, hattn, hrewritten, himage, hengine]

theorem encodeFrame_wellFormed {f : Sys2Proof.Frame} (h : f.malformed = false) : malformedBytes (encodeFrame f) = false := by
  obtain ⟨hlen, hdst⟩ : f.payload.length ≤ 16 ∧ f.dst &&& 0xC0 = 0 := by simpa [Frame.malformed] using h
  have hlenByte : ((encodeFrame f).getD 4 0).toNat = f.payload.length := by
    show (byte f.payload.length).toNat = f.payload.length
    simp only [byte, BitVec.toNat_ofNat]
    omega
  have htake : (encodeFrame f).take (5 + f.payload.length) = frameBody f :=
    List.take_left' (frameBody_length f)
  have hdrop : (encodeFrame f).drop (5 + f.payload.length) = bytes2 (crc16 (frameBody f)) :=
    List.drop_left' (frameBody_length f)
  have hfirst : (encodeFrame f).getD 0 0 = f.dst := rfl
  simp only [malformedBytes, hlenByte, encodeFrame_length, htake, hdrop, hfirst, hdst]
  simp
  omega

/-- Settles O12: the characters pass every test of R110, and the body is read field by field. -/
theorem framesSurviveTheWire : Obligations.FramesSurviveTheWire := by
  intro f h
  have htake : (encodeFrame f).take ((encodeFrame f).length - 2) = frameBody f := by
    rw [encodeFrame_length, Nat.add_sub_cancel]
    exact List.take_left' (frameBody_length f)
  simp only [parseFrame, encodeFrame_wellFormed h, htake, readBody_frameBody, Bool.false_eq_true, if_false]

end Sys2Proof.Machine
end

section
/-! Frames on the two ports: which are received, what acceptance leaves, and how the router hands them on: O28, O29, O32,
O33, O35, O36 and O37. -/

namespace Sys2Proof.Machine

/-! ### Acceptance (R112) -/

/-- Acceptance writes the controller transaction, the silence timer's deadline and prefix-armed, and nothing else. -/
theorem State.opened_eq (s : State) : ∃ d, s.opened = ((s.setCPort .waiting).setSilence d).setPrefix false := by
  obtain ⟨d, hd⟩ := (s.setCPort .waiting).restartSilence_eq
  exact ⟨d, by rw [State.opened, hd]⟩

section
variable (s : State)

@[simp] theorem State.opened_tables : s.opened.tables = s.tables := by obtain ⟨d, h⟩ := s.opened_eq; rw [h]; rfl
@[simp] theorem State.opened_image : s.opened.image = s.image := by obtain ⟨d, h⟩ := s.opened_eq; rw [h]; rfl
@[simp] theorem State.opened_monitor : s.opened.monitor = s.monitor := by obtain ⟨d, h⟩ := s.opened_eq; rw [h]; rfl
@[simp] theorem State.opened_latches : s.opened.latches = s.latches := by obtain ⟨d, h⟩ := s.opened_eq; rw [h]; rfl
@[simp] theorem State.opened_contain : s.opened.contain = s.contain := by obtain ⟨d, h⟩ := s.opened_eq; rw [h]; rfl
@[simp] theorem State.opened_journal : s.opened.journal = s.journal := by obtain ⟨d, h⟩ := s.opened_eq; rw [h]; rfl
@[simp] theorem State.opened_levels : s.opened.levels = s.levels := by obtain ⟨d, h⟩ := s.opened_eq; rw [h]; rfl
@[simp] theorem State.opened_gate : s.opened.gate = s.gate := by obtain ⟨d, h⟩ := s.opened_eq; rw [h]; rfl
@[simp] theorem State.opened_arbiter : s.opened.arbiter = s.arbiter := by obtain ⟨d, h⟩ := s.opened_eq; rw [h]; rfl
@[simp] theorem State.opened_ports : s.opened.ports = { s.ports with cport := .waiting } := by
  obtain ⟨d, h⟩ := s.opened_eq; rw [h]; rfl
@[simp] theorem State.opened_mgmt : s.opened.mgmt = { s.mgmt with prefixArmed := false } := by
  obtain ⟨d, h⟩ := s.opened_eq; rw [h]; rfl
@[simp] theorem State.opened_notices : s.opened.notices = s.notices := by obtain ⟨d, h⟩ := s.opened_eq; rw [h]; rfl
@[simp] theorem State.opened_clock : s.opened.time.clock = s.time.clock := by
  obtain ⟨d, h⟩ := s.opened_eq; rw [h]; rfl
@[simp] theorem State.opened_wakeOnTraffic : s.opened.time.wakeOnTraffic = s.time.wakeOnTraffic := by
  obtain ⟨d, h⟩ := s.opened_eq; rw [h]; rfl

/-! The reads of an accepted frame's state are those of the state before. -/

@[simp] theorem State.opened_now : s.opened.now = s.now := s.opened_clock
@[simp] theorem State.opened_engine : s.opened.engine = s.engine := by unfold State.engine; rw [s.opened_mgmt]
@[simp] theorem State.opened_routeAt (i : Nat) : s.opened.routeAt i = s.routeAt i := by
  unfold State.routeAt; rw [s.opened_tables]
@[simp] theorem State.opened_imageAt (i : Nat) : s.opened.imageAt i = s.imageAt i := by
  unfold State.imageAt; rw [s.opened_image]
@[simp] theorem State.opened_gateAt (i : Nat) : s.opened.gateAt i = s.gateAt i := by
  unfold State.gateAt; rw [s.opened_gate]
@[simp] theorem State.opened_latchAt (c : Nat) : s.opened.latchAt c = s.latchAt c := by
  unfold State.latchAt; rw [s.opened_latches]
@[simp] theorem State.opened_classAt (c : Nat) : s.opened.classAt c = s.classAt c := by
  unfold State.classAt; rw [s.opened_tables]
@[simp] theorem State.opened_findRoute (node chan : Byte) : s.opened.findRoute node chan = s.findRoute node chan :=
  State.findRoute_of_tables s.opened_tables node chan
@[simp] theorem State.opened_lockoutHeld : s.opened.lockoutHeld = s.lockoutHeld := by
  unfold State.lockoutHeld; rw [s.opened_levels]

end

/-! ### Reception (R110 to R113) -/

theorem isNode_ne {a : Byte} (h : isNode a = true) : a ≠ Config.partAddress ∧ a ≠ Config.broadcastAddress := by
  constructor <;> rintro rfl <;> exact absurd h (by decide)

theorem Frame.malformed_eq_false_of_node {f : Sys2Proof.Frame} (hnode : isNode f.dst = true)
    (hlen : f.payload.length ≤ 16) : f.malformed = false := by
  have hdst : f.dst &&& 192#8 = 0#8 := Laws.FrameFits.of_node hnode
  simpa [Frame.malformed, hdst] using hlen

theorem acceptable_iff (f : Sys2Proof.Frame) : acceptable f = true ↔
    f.src = 61 ∧ (((isNode f.dst = true ∨ f.dst = 62) ∧ f.kind ≠ Kind.phase) ∨ (f.dst = 63 ∧ f.kind = Kind.phase)) := by
  simp only [acceptable, Bool.and_eq_true, Bool.or_eq_true, decide_eq_true_eq]

theorem State.accept_of_not_phase {f : Sys2Proof.Frame} (h : f.kind ≠ Kind.phase) (s : State) :
    s.accept f = s.opened := by
  rw [State.accept, if_neg h, State.opened]

section
variable {s : State} {f : Sys2Proof.Frame}

/-- A controller frame to a node (R113). -/
theorem State.receiveC_node (hidle : s.ports.cport = .idle) (hm : f.malformed = false) (hsrc : f.src = 61)
    (hnode : isNode f.dst = true) (hkind : f.kind ≠ Kind.phase) : s.receiveC f = s.opened.handleNode f := by
  obtain ⟨hpart, hcast⟩ := isNode_ne hnode
  have hacc := (acceptable_iff f).mpr ⟨hsrc, .inl ⟨.inl hnode, hkind⟩⟩
  rw [receiveC_accept hm hidle hacc, State.accept_of_not_phase hkind, State.classify, if_neg hcast, if_neg hpart]

/-- A controller frame to the part (R113). -/
theorem State.receiveC_part (hidle : s.ports.cport = .idle) (hm : f.malformed = false) (hsrc : f.src = 61)
    (hpart : f.dst = 62) (hkind : f.kind ≠ Kind.phase) :
    s.receiveC f = s.opened.handlePart f s.mgmt.prefixArmed := by
  have hacc := (acceptable_iff f).mpr ⟨hsrc, .inl ⟨.inr hpart, hkind⟩⟩
  have hcast : f.dst ≠ Config.broadcastAddress := by rw [hpart]; decide
  rw [receiveC_accept hm hidle hacc, State.accept_of_not_phase hkind, State.classify, if_neg hcast, if_pos hpart]

/-- A PHASE broadcast (R125). -/
theorem State.receiveC_broadcast (hidle : s.ports.cport = .idle) (hm : f.malformed = false) (hsrc : f.src = 61)
    (hcast : f.dst = 63) (hkind : f.kind = Kind.phase) :
    s.receiveC f = (s.restartSilence.setPrefix false).handlePhase f := by
  have hacc := (acceptable_iff f).mpr ⟨hsrc, .inr ⟨hcast, hkind⟩⟩
  rw [receiveC_accept hm hidle hacc, State.accept, if_pos hkind, State.classify, if_pos hcast]

end

/-- A management request that fits its frame (R152). -/
theorem State.receiveC_request {s : State} {r : Request} {args : List Byte} (hidle : s.ports.cport = .idle)
    (hfits : args.length ≤ 15) (seq : Byte) :
    s.receiveC (requestFrame r seq args) =
      s.opened.handleRequest r seq args (fun u => u.serve r seq args) s.mgmt.prefixArmed := by
  have hm : (requestFrame r seq args).malformed = false :=
    Laws.FrameFits.of_args (by simpa [argsFit] using hfits) r seq
  rw [State.receiveC_part hidle hm rfl rfl (by simp [requestFrame, ctlFrame])]
  simp [State.handlePart, State.handleMgmt, requestFrame, ctlFrame, ofCode_code]

theorem exec_request {c : Instr} {r : Request} {seq : Byte} {args : List Byte} (h : c.request = some (r, seq, args))
    (s : State) : exec c s = .next (s.receiveC (requestFrame r seq args)) := by
  have hframe : c.controllerFrame = some (requestFrame r seq args) := by
    cases c <;> simp only [Instr.request, Option.some.injEq, Prod.mk.injEq, reduceCtorEq] at h <;>
      obtain ⟨rfl, rfl, rfl⟩ := h <;> rfl
  exact exec_controllerFrame hframe s

/-- Settles O29: acceptance asks for an idle port and the right addresses and kind. -/
theorem framesThatAreNotAccepted : Obligations.FramesThatAreNotAccepted := by
  intro c f s hframe hm
  rw [exec_controllerFrame hframe]
  refine ⟨fun hbusy => congrArg _ (receiveC_busy hm hbusy), fun hidle hwrong => congrArg _ (receiveC_discard hm hidle ?_)⟩
  rw [← Bool.not_eq_true, acceptable_iff]
  rintro ⟨hsrc, ⟨hdst, hkind⟩ | ⟨hdst, hkind⟩⟩
  · have hnot : f.dst ≠ 0 ∧ f.dst ≠ 61 ∧ f.dst ≠ 63 := by
      refine ⟨?_, ?_, ?_⟩ <;> rintro heq <;> rw [heq] at hdst <;> exact absurd hdst (by decide)
    obtain ⟨hzero, hself, hcast⟩ := hnot
    rcases hwrong with h | h | h | ⟨h, _⟩ | ⟨_, h⟩
    exacts [h hsrc, hzero h, hself h, hcast h, hkind h]
  · rw [hdst] at hwrong
    rcases hwrong with h | h | h | ⟨_, h⟩ | ⟨h, _⟩
    exacts [h hsrc, absurd h (by decide), absurd h (by decide), h hkind, h rfl]

/-- Settles O28: malformed characters and stray frames, with and without an open transaction. -/
theorem strayAndMalformedFramesSetTheirFlag : Obligations.StrayAndMalformedFramesSetTheirFlag := by
  intro s bytes f
  refine ⟨fun hparse => ⟨?_, fun hnone => ?_, fun t ht hexp => ?_⟩, fun hm => ⟨fun hnone => ?_, fun t ht hreply hexp => ?_⟩⟩
  · simp [exec, execMalformedFrame, State.charsC, hparse, State.setBadC]
  · simp [exec, execMalformedFrame, State.charsN, hparse, State.setBadN, State.nonReplyEnded, hnone]
  · simp [exec, execMalformedFrame, State.charsN, hparse, State.setBadN, State.nonReplyEnded, ht, hexp]
  · simp [exec, execStray, State.receiveN, hm, hnone, State.setStray]
  · simp [exec, execStray, State.receiveN, hm, ht, hreply, State.setStray, State.nonReplyEnded, hexp]

/-! ### Polls and transparent frames -/

theorem exec_controllerPoll_routed {s : State} {node chan : Byte} {i : Nat} {r : RouteEntry} (seq : Byte)
    (hidle : s.ports.cport = .idle) (hnode : isNode node = true) (hroute : s.findRoute node chan = some (i, r)) :
    exec (.controllerPoll node chan seq) s = .next (s.opened.decidePoll i (pollFrame node chan seq)) := by
  have hm : (pollFrame node chan seq).malformed = false :=
    Frame.malformed_eq_false_of_node hnode (by simp [pollFrame, ctlFrame])
  have hfind : s.opened.findRoute (pollFrame node chan seq).dst (pollFrame node chan seq).chan = some (i, r) :=
    (s.opened_findRoute node chan).trans hroute
  have hhandle : s.opened.handlePoll (pollFrame node chan seq) = s.opened.decidePoll i (pollFrame node chan seq) := by
    have hlen : (pollFrame node chan seq).payload.length = 1 := rfl
    rw [State.handlePoll, if_pos hlen, hfind]
  rw [exec_controllerFrame rfl, State.receiveC_node hidle hm rfl hnode (by simp [pollFrame, ctlFrame]), ← hhandle]
  simp [State.handleNode, pollFrame, ctlFrame]

theorem State.routeAt_of_findRoute {s : State} {node chan : Byte} {i : Nat} {r : RouteEntry}
    (h : s.findRoute node chan = some (i, r)) : s.routeAt i = some r ∧ i < 64 ∧ r.node = node ∧ r.chan = chan := by
  obtain ⟨j, hj, hmatch⟩ := List.exists_of_findSome?_eq_some h
  cases hr : s.routeAt j with
  | none => simp [hr] at hmatch
  | some q =>
    simp only [hr, Option.ite_none_right_eq_some, Option.some.injEq, Prod.mk.injEq] at hmatch
    obtain ⟨⟨hnode, hchan⟩, rfl, rfl⟩ := hmatch
    exact ⟨hr, List.mem_range.mp hj, hnode, hchan⟩

/-- Settles O32: without lockout the POLL waits, under lockout the image answers. -/
theorem routedPollWaitsOrIsAnswered : Obligations.RoutedPollWaitsOrIsAnswered := by
  intro s node chan seq i r hidle hnode hroute
  obtain ⟨hentry, _, _, _⟩ := State.routeAt_of_findRoute hroute
  have hsensor : s.opened.isSensor i = r.kind.isSensor := by
    simp only [State.isSensor, State.opened_routeAt, hentry]
  have hheld : s.opened.lockoutHeld = s.levels.any (·.lockout) := s.opened_lockoutHeld
  dsimp only
  rw [exec_controllerPoll_routed seq hidle hnode hroute]
  simp only [State.decidePoll, hheld]
  refine ⟨fun hfree => by rw [hfree]; rfl, fun hlocked => ?_⟩
  simp only [hlocked, if_true, State.imageReply, hsensor, State.opened_imageAt]
  refine ⟨?_, ?_, ?_, ?_, ?_⟩
  · intro hs hstatus; simp only [hs, hstatus, if_true, ReadingStatus.ok]
  · intro hs hstatus; simp only [hs, hstatus, if_true, ReadingStatus.bad]
  · intro hs hstatus; simp only [hs, hstatus, if_true, ReadingStatus.bad]
  · intro hs hstatus; simp only [hs, hstatus, if_true, ReadingStatus.noReply]
  · intro hs; simp only [hs, Bool.false_eq_true, if_false, ReadingStatus.ok]

theorem State.wakeOnOrder_of_asleep {s : State} (h : s.mgmt.engine = .watch → s.time.wakeOnTraffic = false) :
    s.wakeOnOrder = s := by
  unfold State.wakeOnOrder
  refine if_neg fun ⟨hwatch, htraffic⟩ => ?_
  rw [h hwatch] at htraffic
  cases htraffic

theorem State.handleOrder_transparent {s : State} {f : Sys2Proof.Frame} (hwatch : s.mgmt.engine ≠ .watch)
    (h : f.payload.length ≠ 3 ∨ ∀ i r, s.findRoute f.dst f.chan = some (i, r) → r.kind.isSensor = true) :
    s.handleOrder f = s.passOver f := by
  have hwake : s.wakeOnOrder = s := State.wakeOnOrder_of_asleep fun h => absurd h hwatch
  unfold State.handleOrder
  rw [hwake]
  dsimp only
  split
  next hlen =>
    split
    next i r hroute => rw [RouteKind.isActuator, (h.resolve_left (not_not.mpr hlen)) i r hroute]; rfl
    next => rfl
  next => rfl

theorem State.handlePoll_transparent {s : State} {f : Sys2Proof.Frame}
    (h : f.payload.length ≠ 1 ∨ s.findRoute f.dst f.chan = none) : s.handlePoll f = s.passOver f := by
  unfold State.handlePoll
  split
  next hlen => rw [h.resolve_left (not_not.mpr hlen)]
  next => rfl

/-- Settles O33: each way in which an accepted frame to a node is transparent. -/
theorem transparentFrameWaits : Obligations.TransparentFrameWaits := by
  intro s f hidle hm hsrc hnode hkind horder hpoll
  rw [exec_controllerFrame rfl, State.receiveC_node hidle hm hsrc hnode hkind]
  have hpass : s.opened.handleNode f = s.opened.passOver f := by
    unfold State.handleNode
    split
    next h =>
      obtain ⟨hwatch, hplain⟩ := horder h
      exact State.handleOrder_transparent (by simpa using hwatch) (by simpa using hplain)
    next =>
      split
      next h => exact State.handlePoll_transparent (by simpa using hpoll h)
      next => rfl
  rw [hpass]
  rfl

/-! ### PHASE, PREFIX and frames for the part -/

theorem State.forwardPhase_eq (f : Sys2Proof.Frame) (s : State) :
    s.forwardPhase f = if s.arbiter.queue.length < 16 then
      s.setQueue (s.arbiter.queue ++ [{ frame := { f with flags := {} }, origin := .phase }]) else s := by
  simp only [State.forwardPhase, State.queueHasRoom, decide_eq_true_eq]
  rfl

theorem exec_phase {s : State} {payload : List Byte} (hidle : s.ports.cport = .idle) (hlen : payload.length ≤ 16)
    (seq : Byte) : exec (.phase seq payload) s =
      .next (((s.restartSilence.setPrefix false).trackPhase payload).forwardPhase
        (ctlFrame Config.broadcastAddress Kind.phase seq payload)) := by
  have hm : (ctlFrame Config.broadcastAddress Kind.phase seq payload).malformed = false :=
    Laws.FrameFits.of_payload (by simpa [payloadFits] using hlen) (by decide) Kind.phase seq
  rw [exec_controllerFrame rfl, State.receiveC_broadcast hidle hm rfl rfl rfl]
  rfl

theorem State.restartSilence_ports (s : State) : s.restartSilence.ports = s.ports := by
  obtain ⟨d, hd⟩ := s.restartSilence_eq
  rw [hd]
  rfl

/-- Settles O35: the phase is tracked or BAD_PHASE set, and the broadcast is forwarded as room allows. -/
theorem phaseIsTrackedAndForwarded : Obligations.PhaseIsTrackedAndForwarded := by
  intro s seq hidle
  have hports : (s.restartSilence.setPrefix false).ports = s.ports := s.restartSilence_ports
  refine ⟨fun p ph hcode => ?_, fun payload hlen hinvalid => ?_⟩
  · rw [exec_phase hidle (by simp), State.forwardPhase_eq]
    simp only [State.trackPhase, hcode, hports]
    rfl
  · rw [exec_phase hidle hlen, State.forwardPhase_eq]
    have hbad : (s.restartSilence.setPrefix false).trackPhase payload =
        (s.restartSilence.setPrefix false).setSticky { s.ports.sticky with badPhase := true } := by
      unfold State.trackPhase
      split
      next p =>
        split
        next ph hph => exact absurd hph (hinvalid p ph rfl)
        next => rw [State.setBadPhase, hports]
      next => rw [State.setBadPhase, hports]
    rw [hbad]
    rfl

theorem exec_partFrame {s : State} {c : Instr} {kind : BitVec 4} {seq : Byte} {payload : List Byte}
    (hframe : c.controllerFrame = some (ctlFrame Config.partAddress kind seq payload)) (hidle : s.ports.cport = .idle)
    (hlen : payload.length ≤ 16) (hkind : kind ≠ Kind.phase) :
    exec c s = .next (s.opened.handlePart (ctlFrame Config.partAddress kind seq payload) s.mgmt.prefixArmed) := by
  have hm : (ctlFrame Config.partAddress kind seq payload).malformed = false :=
    Laws.FrameFits.of_payload (by simpa [payloadFits] using hlen) (by decide) kind seq
  rw [exec_controllerFrame hframe, State.receiveC_part hidle hm rfl rfl hkind]

/-- Settles O36: PREFIX, and the three forms of an unknown frame. -/
theorem prefixAndUnknownFramesAreAnswered : Obligations.PrefixAndUnknownFramesAreAnswered := by
  intro s seq payload hidle hlen
  refine ⟨?_, fun kind hphase hprefix hreq => ?_, fun hempty => ?_, fun code args hpayload hcode => ?_⟩
  · rw [exec_partFrame rfl hidle hlen (by decide)]
    simp [State.handlePart, State.handlePrefix, ctlFrame]
  · rw [exec_partFrame rfl hidle hlen hphase]
    exact congrArg _ ((if_neg hprefix).trans (if_neg hreq))
  · rw [exec_partFrame rfl hidle hlen (by decide)]
    simp [State.handlePart, State.handleMgmt, State.answerUnknown, ctlFrame, hempty]
  · rw [exec_partFrame rfl hidle hlen (by decide)]
    simp [State.handlePart, State.handleMgmt, State.answerUnknown, ctlFrame, hpayload, hcode]

/-- Settles O37: the three tests in their order. -/
theorem requestsAreTestedInOrder : Obligations.RequestsAreTestedInOrder := by
  intro c r seq args s hreq hfits hidle
  rw [exec_request hreq, State.receiveC_request hidle hfits]
  have hengine : s.opened.engine = s.mgmt.engine := s.opened_engine
  refine ⟨fun hguarded hprefix => ?_, fun hguarded hprefix hchecking hsoft => ?_, fun hready hshort => ?_⟩
  · simp [State.handleRequest, hguarded, hprefix, State.answer]
  · simp [State.handleRequest, hguarded, hprefix, hengine, hchecking, hsoft, State.answer]
  · have hfirst : ¬ ((r.guarded && !s.mgmt.prefixArmed) = true) := fun h => by
      rw [Bool.and_eq_true, Bool.not_eq_true'] at h
      rw [(hready h.1).1] at h
      cases h.2
    have hsecond : ¬ ((r.guarded && decide (s.opened.engine = .checking) && decide (r ≠ .softReset)) = true) := fun h => by
      simp only [Bool.and_eq_true, decide_eq_true_eq, hengine] at h
      exact (hready h.1.1).2.elim (absurd h.1.2) h.2
    rw [State.handleRequest, if_neg hfirst, if_neg hsecond, if_pos hshort]
    rfl

end Sys2Proof.Machine
end

section
/-! The gate's decision of a controller ORDER (R130, R131), the replay it supersedes (R138), and the wake it can bring
(R177): O30, O31 and O34. -/

namespace Sys2Proof.Machine

/-! ### A gated order reaches the gate -/

theorem orderFrame_wellFormed {node : Byte} (hnode : isNode node = true) (chan : Byte) (v : Half) (seq : Byte) :
    (orderFrame node chan v seq).malformed = false :=
  Frame.malformed_eq_false_of_node hnode (by simp [orderFrame, ctlFrame, orderPayload, bytes2])

theorem orderFrame_value (node chan : Byte) (v : Half) (seq : Byte) : (orderFrame node chan v seq).orderValue = v :=
  orderValue_orderPayload rfl

theorem exec_controllerOrder {node : Byte} (s : State) (chan : Byte) (v : Half) (seq : Byte)
    (hidle : s.ports.cport = .idle) (hnode : isNode node = true) :
    exec (.controllerOrder node chan v seq) s = .next (s.opened.handleOrder (orderFrame node chan v seq)) := by
  have hkind : (orderFrame node chan v seq).kind ≠ Kind.phase := by
    show Kind.order ≠ Kind.phase
    decide
  rw [exec_controllerFrame rfl,
    State.receiveC_node hidle (orderFrame_wellFormed hnode chan v seq) rfl hnode hkind]
  rfl

theorem State.handleOrder_gated {s : State} {f : Sys2Proof.Frame} {i : Nat} {r : RouteEntry}
    (hlen : f.payload.length = 3) (hroute : s.wakeOnOrder.findRoute f.dst f.chan = some (i, r))
    (hactuator : r.kind.isActuator = true) : s.handleOrder f = s.wakeOnOrder.decideOrder i r f := by
  simp only [State.handleOrder, if_pos hlen, hroute, hactuator, if_true]

theorem exec_controllerOrder_gated {s : State} {node chan : Byte} {i : Nat} {r : RouteEntry} (v : Half) (seq : Byte)
    (hidle : s.ports.cport = .idle) (hnode : isNode node = true)
    (hasleep : s.mgmt.engine = .watch → s.time.wakeOnTraffic = false)
    (hroute : s.findRoute node chan = some (i, r)) (hactuator : r.kind.isActuator = true) :
    exec (.controllerOrder node chan v seq) s =
      .next (s.opened.decideOrder i r (orderFrame node chan v seq)) := by
  have hawake : s.opened.wakeOnOrder = s.opened := State.wakeOnOrder_of_asleep (by simpa using hasleep)
  rw [exec_controllerOrder s chan v seq hidle hnode,
    State.handleOrder_gated rfl (by rw [hawake, s.opened_findRoute]; exact hroute) hactuator, hawake]

/-! ### The values of steps 4 and 5 (R130) -/

theorem State.inhibited_eq (s : State) (r : RouteEntry) (v : Half) :
    s.inhibited r v = if r.kind = .heater ∧ s.contain.engaged = true then 0 else v := by
  unfold State.inhibited
  by_cases hzero : v = 0
  · rw [if_neg fun h => h.2.2 hzero, hzero, ite_self]
  · exact if_congr ⟨fun h => ⟨h.1, h.2.1⟩, fun h => ⟨h.1, h.2, hzero⟩⟩ rfl rfl

theorem State.gateValue_congr {s t : State} (hlevels : t.levels = s.levels) (hcontain : t.contain = s.contain)
    (htables : t.tables = s.tables) (i : Nat) (r : RouteEntry) (v : Half) : t.gateValue i r v = s.gateValue i r v := by
  unfold State.gateValue State.capInForce State.conveyorRef
  rw [hlevels, hcontain, htables]

theorem State.letThrough_eq (i : Nat) (f : Sys2Proof.Frame) (v : Half) (s : State) :
    s.letThrough i f v = ((s.replayEnded i).dropReplay i).setWaiting (some { req := f, kind := .order i v }) := rfl

/-- What the gate lets a gated order through with: steps 4 and 5 in ARMED and WATCH, step 4 alone before (R130). -/
def State.letThroughValue (s : State) (i : Nat) (r : RouteEntry) (v : Half) : Half :=
  if s.mgmt.engine = .armed ∨ s.mgmt.engine = .watch then s.gateValue i r v else s.inhibited r v

section
variable {s : State} {i : Nat} {r : RouteEntry} {f : Sys2Proof.Frame}

/-- Steps 1 to 3 do not stand in the way, or are not taken. -/
theorem State.decideOrder_letThrough
    (hfree : s.mgmt.engine = .armed ∨ s.mgmt.engine = .watch →
      s.gate.ctlMask.getLsbD r.group = false ∧ s.levels.any (·.lockout) = false ∧ (s.gateAt i).owner = .controller) :
    s.decideOrder i r f = s.letThrough i f (s.letThroughValue i r f.orderValue) := by
  unfold State.decideOrder State.letThroughValue
  dsimp only
  split
  next hgated =>
    obtain ⟨hmask, hlock, howner⟩ := hfree hgated
    rw [if_pos (show s.mgmt.engine = .armed ∨ s.mgmt.engine = .watch from hgated), ← State.clamped_inhibited]
    simp only [State.ctlProtected, hmask, State.lockoutHeld, hlock, howner, Bool.false_eq_true, if_false, not_true, ne_eq]
  next hgated => rw [if_neg (show ¬ (s.mgmt.engine = .armed ∨ s.mgmt.engine = .watch) from hgated)]

section
variable (hgated : s.mgmt.engine = .armed ∨ s.mgmt.engine = .watch)
include hgated

theorem State.decideOrder_protected (hmask : s.gate.ctlMask.getLsbD r.group = true) :
    s.decideOrder i r f = s.convertProtected i r f := by
  unfold State.decideOrder
  dsimp only
  rw [if_pos (show s.engine = .armed ∨ s.engine = .watch from hgated), State.ctlProtected, if_pos hmask]

theorem State.decideOrder_locked (hmask : s.gate.ctlMask.getLsbD r.group = false)
    (hlock : s.levels.any (·.lockout) = true) : s.decideOrder i r f = s.answerGate i f AckStatus.locked := by
  unfold State.decideOrder
  dsimp only
  rw [if_pos (show s.engine = .armed ∨ s.engine = .watch from hgated), State.ctlProtected, if_neg (by rw [hmask]; exact Bool.noConfusion), State.lockoutHeld, if_pos hlock]

theorem State.decideOrder_held (hmask : s.gate.ctlMask.getLsbD r.group = false)
    (hlock : s.levels.any (·.lockout) = false) (howner : (s.gateAt i).owner ≠ .controller) :
    s.decideOrder i r f = (s.holdOrder i f.orderValue).answerGate i f AckStatus.held := by
  unfold State.decideOrder
  dsimp only
  rw [if_pos (show s.engine = .armed ∨ s.engine = .watch from hgated), State.ctlProtected, if_neg (by rw [hmask]; exact Bool.noConfusion), State.lockoutHeld,
    if_neg (by rw [hlock]; exact Bool.noConfusion), if_pos howner]

end

/-! ### The replay of the channel (R138, R144) -/

theorem State.replayEnded_of_no_replay (h : ∀ w, (s.gateAt i).held ≠ .replayDue w) : s.replayEnded i = s := by
  unfold State.replayEnded
  split
  next w hw => exact absurd hw (h w)
  next => rfl

theorem State.replayWaits_iff (s : State) (i : Nat) : s.replayWaits i = true ↔
    (∃ q ∈ s.arbiter.queue, q.origin = .replay i) ∨ RoomEntry.replay i ∈ s.arbiter.room := by
  simp [State.replayWaits, List.any_eq_true]

theorem State.dropReplay_of_none (hqueue : ∀ q ∈ s.arbiter.queue, q.origin ≠ .replay i)
    (hroom : ∀ e ∈ s.arbiter.room, e ≠ .replay i) : s.dropReplay i = s := by
  unfold State.dropReplay
  refine if_neg fun hwaits => ?_
  rcases (s.replayWaits_iff i).mp hwaits with ⟨q, hq, ho⟩ | hmem
  · exact hqueue q hq ho
  · exact hroom _ hmem rfl

theorem State.letThrough_of_no_replay (hheld : ∀ w, (s.gateAt i).held ≠ .replayDue w)
    (hqueue : ∀ q ∈ s.arbiter.queue, q.origin ≠ .replay i) (hroom : ∀ e ∈ s.arbiter.room, e ≠ .replay i) (v : Half) :
    s.letThrough i f v = s.setWaiting (some { req := f, kind := .order i v }) := by
  rw [State.letThrough_eq, State.replayEnded_of_no_replay hheld, State.dropReplay_of_none hqueue hroom]

end

theorem State.opened_letThroughValue (s : State) (i : Nat) (r : RouteEntry) (v : Half) :
    s.opened.letThroughValue i r v = s.letThroughValue i r v := by
  unfold State.letThroughValue
  rw [State.gateValue_congr s.opened_levels s.opened_contain s.opened_tables, State.inhibited_eq, State.inhibited_eq,
    s.opened_mgmt, s.opened_contain]

/-- Settles O30: the five steps in order. -/
theorem gatedOrdersAreDecided : Obligations.GatedOrdersAreDecided := by
  refine ⟨fun s node chan seq v i r hidle hnode hengine hroute hactuator hheld hqueue hroom => ?_,
    fun s node chan seq v i r hidle hnode hengine hroute hactuator => ?_⟩
  · have hnot : ¬ (s.mgmt.engine = .armed ∨ s.mgmt.engine = .watch) := by
      rcases hengine with h | h <;> simp [h]
    rw [exec_controllerOrder_gated v seq hidle hnode (fun h => absurd (.inr h) hnot) hroute hactuator,
      State.decideOrder_letThrough (by simpa using fun h => absurd h hnot),
      State.letThrough_of_no_replay (by simpa using hheld) (by simpa using hqueue) (by simpa using hroom),
      s.opened_letThroughValue, orderFrame_value, State.letThroughValue, if_neg hnot, State.inhibited_eq]
  · have hgated : s.mgmt.engine = .armed ∨ s.mgmt.engine = .watch := hengine.imp_right And.left
    have hgated' : s.opened.mgmt.engine = .armed ∨ s.opened.mgmt.engine = .watch := by simpa using hgated
    have hasleep : s.mgmt.engine = .watch → s.time.wakeOnTraffic = false := fun h =>
      hengine.elim (fun ha => by rw [h] at ha; cases ha) And.right
    dsimp only
    rw [exec_controllerOrder_gated v seq hidle hnode hasleep hroute hactuator]
    have hanswer (st : Byte) (u : State) (hu : u.imageAt i = s.imageAt i) :
        u.answerGate i (orderFrame node chan v seq) st =
          u.reply (gateAck (orderFrame node chan v seq) st (s.imageAt i).applied) := by
      rw [State.answerGate, hu]
    refine ⟨fun hmask hlock => ?_, fun hmask hlock => ?_, fun hmask hlock => ?_, fun hmask hlock howner => ?_,
      fun hmask hlock howner hheld hqueue hroom => ?_⟩
    · rw [State.decideOrder_protected hgated' (by simpa using hmask), State.convertProtected,
        if_pos ((s.opened_lockoutHeld).trans hlock), hanswer _ _ (s.opened_imageAt i)]
      rfl
    · rw [State.decideOrder_protected hgated' (by simpa using hmask), State.convertProtected,
        if_neg (by rw [s.opened_lockoutHeld, State.lockoutHeld, hlock]; exact Bool.noConfusion)]
      simp only [State.engineFrame, State.opened_ports]
      rfl
    · rw [State.decideOrder_locked hgated' (by simpa using hmask) (by simpa using hlock),
        hanswer _ _ (s.opened_imageAt i)]
      rfl
    · rw [State.decideOrder_held hgated' (by simpa using hmask) (by simpa using hlock) (by simpa using howner),
        orderFrame_value, hanswer _ (s.opened.holdOrder i v) (s.opened_imageAt i)]
      rfl
    · rw [State.decideOrder_letThrough (fun _ => ⟨by simpa using hmask, by simpa using hlock, by simpa using howner⟩),
        State.letThrough_of_no_replay (by simpa using hheld) (by simpa using hqueue) (by simpa using hroom),
        s.opened_letThroughValue, orderFrame_value, State.letThroughValue, if_pos hgated]
      rfl

/-! ### What an order let through leaves of the channel's replay (R138, R144) -/

/-- The held slot once no replay is due. -/
def State.keptHeld (i : Nat) (s : State) : HeldSlot :=
  match (s.gateAt i).held with
  | .replayDue _ => .empty
  | h => h

theorem State.replayEnded_eq (i : Nat) (s : State) :
    s.replayEnded i = s.modGate i fun g => { g with held := s.keptHeld i } := by
  unfold State.replayEnded State.keptHeld
  cases g : (s.gateAt i).held with
  | replayDue v => rfl
  | empty => dsimp only; exact (State.modGate_self (by rw [← g])).symm
  | held v => dsimp only; exact (State.modGate_self (by rw [← g])).symm

theorem State.replayEnded_held (i : Nat) (s : State) : ((s.replayEnded i).gateAt i).held = s.keptHeld i := by
  rw [State.replayEnded_eq, State.gateAt_modGate]
  split
  next => rfl
  next hout =>
    have hempty : (s.gateAt i).held = .empty := by
      unfold State.gateAt
      rw [Vector.getElem?_eq_none (by omega)]
      rfl
    rw [State.keptHeld, hempty]

/-- The queue has grown by frames that are no replay of the channel, and the channel's held slot stands. -/
def State.GrownBeside (i : Nat) (s t : State) : Prop :=
  (∃ added, t.arbiter.queue = s.arbiter.queue ++ added ∧ ∀ q ∈ added, q.origin ≠ .replay i) ∧
    (t.gateAt i).held = (s.gateAt i).held

theorem State.GrownBeside.refl (i : Nat) (s : State) : s.GrownBeside i s :=
  ⟨⟨[], (List.append_nil _).symm, fun _ h => absurd h List.not_mem_nil⟩, rfl⟩

theorem State.GrownBeside.trans {i : Nat} {s t u : State} (h : s.GrownBeside i t) (k : t.GrownBeside i u) :
    s.GrownBeside i u := by
  obtain ⟨⟨added, hqueue, hnone⟩, hheld⟩ := h
  obtain ⟨⟨more, hqueue', hnone'⟩, hheld'⟩ := k
  refine ⟨⟨added ++ more, by rw [hqueue', hqueue, List.append_assoc], fun q hq => ?_⟩, hheld'.trans hheld⟩
  exact (List.mem_append.mp hq).elim (hnone q) (hnone' q)

theorem State.appendOrder_grownBeside {i : Nat} {o : Origin} (s : State) (ho : o ≠ .replay i) (j : Nat) (v : Half) :
    s.GrownBeside i (s.appendOrder j v o) := by
  unfold State.appendOrder
  split
  next r _ => exact ⟨⟨[_], rfl, fun q hq => by rw [List.mem_singleton.mp hq]; exact ho⟩, rfl⟩
  next => exact .refl i s

theorem State.modGate_grownBeside {f : GateCell → GateCell} (hf : ∀ g, (f g).held = g.held) (i j : Nat) (s : State) :
    s.GrownBeside i (s.modGate j f) := by
  refine ⟨⟨[], (List.append_nil _).symm, fun _ h => absurd h List.not_mem_nil⟩, ?_⟩
  rw [State.gateAt_modGate]
  split
  next => exact hf _
  next => rfl

theorem State.roomBecomesAck_grownBeside (i d : Nat) (s : State) : s.GrownBeside i (s.roomBecomesAck d) :=
  ⟨⟨[], (List.append_nil _).symm, fun _ h => absurd h List.not_mem_nil⟩, rfl⟩

theorem State.decideReplay_grownBeside {i j : Nat} (h : j ≠ i) (s : State) : s.GrownBeside i (s.decideReplay j) := by
  have hgate (f : GateCell → GateCell) : s.GrownBeside i (s.modGate j f) :=
    ⟨⟨[], (List.append_nil _).symm, fun _ h => absurd h List.not_mem_nil⟩, by
      rw [State.gateAt_modGate, if_neg fun k => h k.1]⟩
  unfold State.decideReplay
  split
  next =>
    split
    · exact hgate _
    · exact s.appendOrder_grownBeside (fun k => h (by injection k)) ..
  next => exact .refl i s

theorem State.appendRoomEntry_grownBeside {i : Nat} {e : RoomEntry} (h : e ≠ .replay i) (s : State) :
    s.GrownBeside i (s.appendRoomEntry e) := by
  cases e with
  | plan d st j v =>
    have hgrown : s.GrownBeside i (s.appendOrder j v (.plan d st j)) := s.appendOrder_grownBeside (by simp) j v
    exact hgrown.trans ((s.appendOrder j v (.plan d st j)).roomBecomesAck_grownBeside i d)
  | replay j => exact s.decideReplay_grownBeside fun k => h (congrArg _ k)
  | handBack j =>
    show s.GrownBeside i (s.appendHandBack j)
    unfold State.appendHandBack
    split
    next v _ =>
      have hgrown : s.GrownBeside i (s.appendOrder j v (.handBack j)) := s.appendOrder_grownBeside (by simp) j v
      exact hgrown.trans (State.modGate_grownBeside (f := fun c => { c with handBack := none }) (fun _ => rfl) i j _)
    next => exact .refl i s

theorem fillFrom_grownBeside {i : Nat} {es : List RoomEntry} (h : ∀ e ∈ es, e ≠ .replay i) (s : State) :
    s.GrownBeside i (fillFrom es s) ∧ (fillFrom es s).arbiter.room <:+ es := by
  induction es generalizing s with
  | nil => exact ⟨.refl i _, List.suffix_refl _⟩
  | cons e es ih =>
    obtain ⟨he, hes⟩ := List.forall_mem_cons.mp h
    unfold fillFrom
    split
    · obtain ⟨hgrown, hroom⟩ := ih hes (s.appendRoomEntry e)
      exact ⟨(State.appendRoomEntry_grownBeside he s).trans hgrown, hroom.trans (List.suffix_cons e es)⟩
    · exact ⟨.refl i _, List.suffix_refl _⟩

/-- The state with no replay of the channel queued or waiting, before the room list fills the places. -/
def State.withoutReplay (i : Nat) (s : State) : State :=
  (s.setQueue (s.arbiter.queue.filter fun q => decide (q.origin ≠ .replay i))).setRoom
    (s.arbiter.room.filter fun e => decide (e ≠ .replay i))

theorem State.dropReplay_of_waits {i : Nat} {s : State} (h : s.replayWaits i = true) :
    s.dropReplay i = (s.withoutReplay i).fillRoom := by
  unfold State.dropReplay State.removeRoom State.removeQueued State.withoutReplay
  rw [if_pos h]
  simp only [decide_not]
  rfl

theorem State.withoutReplay_of_none {i : Nat} {s : State} (hqueue : ∀ q ∈ s.arbiter.queue, q.origin ≠ .replay i)
    (hroom : ∀ e ∈ s.arbiter.room, e ≠ .replay i) : s.withoutReplay i = s := by
  unfold State.withoutReplay
  rw [List.filter_eq_self.mpr fun q hq => decide_eq_true (hqueue q hq),
    List.filter_eq_self.mpr fun e he => decide_eq_true (hroom e he)]
  rfl

theorem State.dropReplay_of_only {i : Nat} {s : State} (h : ∀ e ∈ s.arbiter.room, e = .replay i) :
    s.dropReplay i = (s.withoutReplay i).setRoom [] := by
  by_cases hwaits : s.replayWaits i = true
  · have hempty : (s.withoutReplay i).arbiter.room = [] :=
      List.filter_eq_nil_iff.mpr fun e he k => of_decide_eq_true k (h e he)
    rw [State.dropReplay_of_waits hwaits, State.fillRoom, hempty, fillFrom]
  · rw [State.replayWaits_iff] at hwaits
    push Not at hwaits
    have hempty : s.arbiter.room = [] := List.eq_nil_iff_forall_not_mem.mpr fun e he => hwaits.2 (h e he ▸ he)
    have hnone : ∀ e ∈ s.arbiter.room, e ≠ .replay i := by simp [hempty]
    rw [State.dropReplay_of_none hwaits.1 hnone, State.withoutReplay_of_none hwaits.1 hnone, ← hempty]
    rfl

theorem State.dropReplay_grownBeside (i : Nat) (s : State) : (s.withoutReplay i).GrownBeside i (s.dropReplay i) ∧
    ∀ e ∈ (s.dropReplay i).arbiter.room, e ≠ .replay i := by
  have hroom : ∀ e ∈ (s.withoutReplay i).arbiter.room, e ≠ .replay i := fun e he =>
    of_decide_eq_true (List.mem_filter.mp he).2
  by_cases hwaits : s.replayWaits i = true
  · rw [State.dropReplay_of_waits hwaits]
    obtain ⟨hgrown, hsuffix⟩ := fillFrom_grownBeside hroom (s.withoutReplay i)
    exact ⟨hgrown, fun e he => hroom e (hsuffix.subset he)⟩
  · rw [s.replayWaits_iff] at hwaits
    push Not at hwaits
    have hnone : ∀ e ∈ s.arbiter.room, e ≠ .replay i := fun e he k => hwaits.2 (k ▸ he)
    rw [State.dropReplay_of_none hwaits.1 hnone, State.withoutReplay_of_none hwaits.1 hnone]
    exact ⟨.refl i s, hnone⟩

/-- Settles O31: the slot ends, every replay of the channel leaves, and the room list fills the places. -/
theorem letThroughSupersedesTheReplay : Obligations.LetThroughSupersedesTheReplay := by
  intro s node chan seq v i r hidle hnode hroute hactuator gated hasleep hfree v₁ v₂ v₃ kept queue waiting freed
  have hkept : s.opened.keptHeld i = kept := by
    rw [State.keptHeld, s.opened_gateAt] <;> rfl
  have hend : s.opened.replayEnded i = s.opened.modGate i fun g => { g with held := kept } := by
    rw [State.replayEnded_eq, hkept]
  have hqueued : (s.opened.replayEnded i).arbiter = s.arbiter := by
    rw [hend]
    exact s.opened_arbiter
  have hfreed : (s.opened.replayEnded i).withoutReplay i = freed := by
    rw [State.withoutReplay, hqueued, hend]
  obtain ⟨⟨⟨added, hqueue, hadded⟩, hheld⟩, hroom⟩ := (s.opened.replayEnded i).dropReplay_grownBeside i
  rw [hfreed] at hqueue hheld
  have hslot : (freed.gateAt i).held = kept := by
    rw [← hfreed]
    exact (State.replayEnded_held i s.opened).trans hkept
  have hexec : exec (.controllerOrder node chan v seq) s = .next (((s.opened.replayEnded i).dropReplay i).setWaiting
      (waiting (s.letThroughValue i r v))) := by
    rw [exec_controllerOrder_gated v seq hidle hnode hasleep hroute hactuator,
      State.decideOrder_letThrough (fun h => by simpa using hfree (by simpa using h)), s.opened_letThroughValue,
      orderFrame_value, State.letThrough_eq]
  refine ⟨_, hexec, hheld.trans hslot, fun h => ?_, fun h => ?_, ?_, ?_, hroom, fun hq hr => ?_, fun hw => ?_,
    fun hr => ?_⟩
  · show waiting (s.letThroughValue i r v) = waiting v₃
    rw [State.letThroughValue, if_pos h]
    rfl
  · show waiting (s.letThroughValue i r v) = waiting v₁
    rw [State.letThroughValue, if_neg h, State.inhibited_eq]
  · exact ⟨added, hqueue.symm⟩
  · intro q hq
    rcases List.mem_append.mp (hqueue ▸ hq) with hq | hq
    · exact of_decide_eq_true (List.mem_filter.mp hq).2
    · exact hadded q hq
  · rw [← hqueued] at hq hr
    rw [State.dropReplay_of_none hq hr, ← hfreed, State.withoutReplay_of_none hq hr]
    rfl
  · rw [← hqueued] at hw
    refine ⟨freed.fillRoom, State.fillRoom_fills freed, ?_⟩
    rw [State.dropReplay_of_waits ((State.replayWaits_iff _ i).mpr hw), hfreed]
    rfl
  · rw [State.dropReplay_of_only (by rw [hqueued]; exact hr), hfreed]
    rfl

end Sys2Proof.Machine
end

section
/-! The end of WATCH at an ORDER (R177): O34. -/

namespace Sys2Proof.Machine

theorem State.opened_silence_none {s : State} (h : s.time.silence = none) : s.opened.time.silence = none := by
  unfold State.opened
  rw [State.restartSilence, if_neg (by simp [h])]
  exact h

/-- Accepting a frame changes nothing of a state in which a transaction has just been opened. -/
theorem State.setCPort_idle_opened {s : State} (hcport : s.ports.cport = .waiting) (hprefix : s.mgmt.prefixArmed = false)
    (hsilence : s.time.silence = none ∨ s.time.silence = some (s.now + seconds s.silenceLimit)) :
    (s.setCPort .idle).opened = s := by
  have hport : (s.setCPort .idle).setCPort .waiting = s := by
    rw [← hcport]
    rfl
  have hrestart : s.restartSilence = s := by
    unfold State.restartSilence
    rcases hsilence with h | h
    · exact if_neg (by simp [h])
    · rw [if_pos (by simp [h]), ← h]
      rfl
  rw [State.opened, hport, hrestart, ← hprefix]
  rfl

theorem State.ExecutorFrame.now {s t : State} (h : s.ExecutorFrame t) : t.now = s.now := by
  rw [State.now, h.time, State.now]

theorem State.ExecutorFrame.silenceLimit {s t : State} (h : s.ExecutorFrame t) : t.silenceLimit = s.silenceLimit := by
  rw [State.silenceLimit, h.tables, State.silenceLimit]

theorem State.syncSilence_of_none {s : State} (h : s.time.silence = none) :
    s.syncSilence.time.silence = none ∨
      s.syncSilence.time.silence = some (s.syncSilence.now + seconds s.syncSilence.silenceLimit) := by
  unfold State.syncSilence
  split
  · rw [if_neg (by simp [h])]
    exact .inr rfl
  · exact .inl rfl

/-- The state in which an ORDER ends WATCH, before the silence timer and the executor (R177). -/
def State.trafficWoken (s : State) : State := ((s.setWatch none).setEngine .armed).notify .wake 3 0xFFFF 0xFFFF

section
variable {s : State}

theorem State.wakeOnOrder_of_traffic (hwatch : s.mgmt.engine = .watch) (htraffic : s.time.wakeOnTraffic = true) :
    s.wakeOnOrder = s.trafficWoken.syncSilence.runEvaluate :=
  if_pos ⟨hwatch, htraffic⟩

theorem State.runEvaluate_frame (s : State) : s.ExecutorFrame s.runEvaluate := (State.ExecutorFrame.refl s).runEvaluate

theorem State.syncSilence_mgmt (s : State) : s.syncSilence.mgmt = s.mgmt := by
  obtain ⟨d, h⟩ := syncSilence_eq s
  rw [h]
  rfl

theorem State.syncSilence_watchDeadline (s : State) : s.syncSilence.time.watchDeadline = s.time.watchDeadline := by
  obtain ⟨d, h⟩ := syncSilence_eq s
  rw [h]
  rfl

theorem State.woken_armed (s : State) : s.trafficWoken.syncSilence.runEvaluate.mgmt.engine = .armed := by
  rw [(State.runEvaluate_frame _).mgmt, State.syncSilence_mgmt]
  rfl

theorem State.woken_watchDeadline (s : State) : s.trafficWoken.syncSilence.runEvaluate.time.watchDeadline = none := by
  rw [(State.runEvaluate_frame _).time, State.syncSilence_watchDeadline]
  rfl

theorem State.wakeOnOrder_of_armed (h : s.mgmt.engine = .armed) : s.wakeOnOrder = s :=
  State.wakeOnOrder_of_asleep fun hwatch => by rw [h] at hwatch; cases hwatch

/-- An ORDER is decided in the state it has woken the part to. -/
theorem State.handleOrder_woken {f : Sys2Proof.Frame} (h : s.wakeOnOrder.mgmt.engine = .armed) :
    s.wakeOnOrder.handleOrder f = s.handleOrder f := by
  unfold State.handleOrder
  rw [State.wakeOnOrder_of_armed h]

/-- A controller ORDER to a node reaches the gate. -/
theorem exec_nodeOrder {c : Instr} {f : Sys2Proof.Frame} (hc : c.controllerFrame = some f) (hidle : s.ports.cport = .idle)
    (hm : f.malformed = false) (hsrc : f.src = 61) (hnode : isNode f.dst = true) (hkind : f.kind = Kind.order) :
    exec c s = .next (s.opened.handleOrder f) := by
  have hphase : f.kind ≠ Kind.phase := by
    rw [hkind]
    decide
  rw [exec_controllerFrame hc, State.receiveC_node hidle hm hsrc hnode hphase, State.handleNode, if_pos hkind]

end

theorem State.woken_cport {s : State} (hwaiting : s.arbiter.waiting = none) :
    s.opened.trafficWoken.syncSilence.runEvaluate.ports.cport = .waiting := by
  have hports : s.opened.trafficWoken.syncSilence.ports = { s.ports with cport := .waiting } := by
    obtain ⟨d, h⟩ := syncSilence_eq s.opened.trafficWoken
    rw [h]
    exact s.opened_ports
  have hwait : s.opened.trafficWoken.syncSilence.arbiter.waiting = none := by
    obtain ⟨d, h⟩ := syncSilence_eq s.opened.trafficWoken
    rw [h]
    exact (congrArg Arbiter.waiting s.opened_arbiter).trans hwaiting
  rcases s.opened.trafficWoken.syncSilence.runEvaluate_frame.answered with ⟨h, _⟩ | ⟨h, _⟩
  · rw [h, hports]
  · rw [hwait] at h
    cases h

/-- The woken state is one in which a transaction has just been opened. -/
theorem State.woken_opened {s : State} (hwaiting : s.arbiter.waiting = none) (hsilence : s.time.silence = none) :
    (s.opened.trafficWoken.syncSilence.runEvaluate.setCPort .idle).opened =
      s.opened.trafficWoken.syncSilence.runEvaluate := by
  have hframe := s.opened.trafficWoken.syncSilence.runEvaluate_frame
  refine State.setCPort_idle_opened (State.woken_cport hwaiting) ?_ ?_
  · rw [hframe.mgmt, State.syncSilence_mgmt]
    show s.opened.mgmt.prefixArmed = false
    rw [s.opened_mgmt]
  · rw [hframe.now, hframe.silenceLimit, hframe.time]
    exact State.syncSilence_of_none (State.opened_silence_none hsilence)

section
variable {s : State} (hidle : s.ports.cport = .idle) (hwatch : s.mgmt.engine = .watch)
  (htraffic : s.time.wakeOnTraffic = true)
include hidle hwatch htraffic

/-- What an ORDER that ends WATCH does, for every command that brings one. -/
theorem exec_wakingOrder {c : Instr} {f : Sys2Proof.Frame} (hc : c.controllerFrame = some f)
    (hm : f.malformed = false) (hsrc : f.src = 61) (hnode : isNode f.dst = true) (hkind : f.kind = Kind.order) :
    (s.arbiter.waiting = none → s.time.silence = none →
      exec c s = exec c (s.opened.trafficWoken.syncSilence.runEvaluate.setCPort .idle)) ∧
    ∃ t, exec c s = .next t ∧ t.mgmt.engine = .armed ∧ t.time.watchDeadline = none := by
  have hwoken : s.opened.wakeOnOrder = s.opened.trafficWoken.syncSilence.runEvaluate :=
    State.wakeOnOrder_of_traffic (by simpa using hwatch) (by simpa using htraffic)
  have hexec := exec_nodeOrder hc hidle hm hsrc hnode hkind
  have harmed := s.opened.woken_armed
  rw [← State.handleOrder_woken (by rw [hwoken]; exact harmed), hwoken] at hexec
  refine ⟨fun hwaiting hsilence => ?_, _, hexec, ?_⟩
  · have hreopened := State.woken_opened hwaiting hsilence
    rw [hexec, exec_nodeOrder hc rfl hm hsrc hnode hkind, hreopened]
  · have hquiet := s.opened.trafficWoken.syncSilence.runEvaluate.handleOrder_quiet f
    have hdeadline := s.opened.woken_watchDeadline
    refine ⟨hquiet.engine.elim (·.trans harmed) (·.2.1), hquiet.watch.elim (·.trans hdeadline) id⟩

end

/-- Settles O34: the ORDER wakes the part, and is then decided in the armed state it finds. -/
theorem trafficEndsWatch : Obligations.TrafficEndsWatch := by
  intro s f node chan seq v hidle hwatch htraffic
  refine ⟨s.opened.woken_armed, fun hnode => ?_, fun hm hsrc hnode hkind => ?_⟩
  · exact exec_wakingOrder hidle hwatch htraffic rfl (orderFrame_wellFormed hnode chan v seq) rfl hnode rfl
  · exact exec_wakingOrder hidle hwatch htraffic rfl hm hsrc hnode hkind

end Sys2Proof.Machine
end

section
/-! The open requests that read state (R25, R58, R78, R108, R161, R169, R170): O38 to O42. -/

namespace Sys2Proof.Machine

/-! ### A request that reaches its rule -/

theorem exec_served {c : Instr} {r : Request} {seq : Byte} {args : List Byte} {s : State}
    (hc : c.request = some (r, seq, args)) (h : s.Reaches r args) : exec c s = .next (s.opened.serve r seq args) := by
  rw [exec_request hc, receiveC_served h]

theorem State.Reaches.of_open {s : State} {r : Request} {args : List Byte} (hidle : s.ports.cport = .idle)
    (hopen : r.guarded = false) (hfits : args.length ≤ 15) (hcomplete : r.minArgs args ≤ args.length) :
    s.Reaches r args where
  idle := hidle
  fits := hfits
  complete := hcomplete
  prefixed h := by rw [hopen] at h; cases h
  notBusy h := by rw [hopen] at h; cases h

theorem State.opened_runAt (g : Nat) (s : State) : s.opened.runAt g = s.runAt g := by
  unfold State.runAt
  rw [s.opened_monitor]

/-! ### STATUS and NOTICE_FETCH (R169, R170) -/

theorem getLsbD_orPowers (p : Nat → Bool) (l : List Nat) (w : Half) {n : Nat} (hn : n < 16) :
    (l.foldl (fun w c => if p c then w ||| BitVec.ofNat 16 (2 ^ c) else w) w).getLsbD n =
      (w.getLsbD n || (decide (n ∈ l) && p n)) := by
  induction l generalizing w with
  | nil => simp
  | cons c l ih =>
    have hpower : (BitVec.ofNat 16 (2 ^ c)).getLsbD n = decide (c = n) := by
      rw [BitVec.getLsbD_ofNat, Nat.testBit_two_pow]
      simp [hn]
    have hstep : (if p c then w ||| BitVec.ofNat 16 (2 ^ c) else w).getLsbD n =
        (w.getLsbD n || (decide (c = n) && p n)) := by
      split
      next hp =>
        rw [BitVec.getLsbD_or, hpower]
        by_cases hc : c = n
        · simp [hc, hc ▸ hp]
        · simp [hc]
      next hp =>
        by_cases hc : c = n
        · simp [hc ▸ hp]
        · simp [hc]
    rw [List.foldl_cons, ih, hstep, Bool.or_assoc, ← Bool.and_or_distrib_right]
    simp [List.mem_cons, eq_comm]

theorem State.eligibleSummary_getLsbD (s : State) {n : Nat} (hn : n < 16) : s.eligibleSummary.getLsbD n =
    (decide (n < 12) && decide ((s.latchAt n).state = .pending) && (s.classAt n).enable) := by
  rw [State.eligibleSummary, getLsbD_orPowers _ _ _ hn]
  simp [State.eligible, Bool.and_assoc, Config.classes]

theorem State.opened_statusData (s : State) : s.opened.statusData = s.statusData := by
  have heligible : s.opened.eligible = s.eligible := by
    funext c
    rw [State.eligible, s.opened_latchAt, s.opened_classAt, State.eligible]
  have hclass (d : Nat) : s.opened.depthClass d = s.depthClass d := by
    rw [State.depthClass, s.opened_levels, State.depthClass]
  rw [State.statusData, State.eligibleSummary, heligible, hclass, hclass, hclass, s.opened_engine, s.opened_ports,
    s.opened_contain, s.opened_journal, s.opened_notices, s.opened_mgmt]
  rfl

theorem Containment.statusByte_eq (c : Containment) : c.statusByte = (if c.engaged then 0x80 else 0) |||
    (match c.firstCause with
      | some f => byte (16 * (f.cls % 4)) ||| byte (f.zone.getD 15 % 16)
      | none => 15) := by
  unfold Containment.statusByte
  cases c.firstCause with
  | some f => exact BitVec.or_assoc ..
  | none => rfl

theorem markOverflow_concat (older : List Notice) (newest : Notice) :
    markOverflow (older ++ [newest]) = older ++ [{ newest with overflowed := true }] := by
  induction older with
  | nil => rfl
  | cons n older ih =>
    cases older with
    | nil => rfl
    | cons m rest => exact congrArg (n :: ·) ih

theorem pushNotice_full {older : List Notice} {newest : Notice} (h : older.length = 15) (n : Notice) :
    pushNotice (older ++ [newest]) n = older ++ [{ newest with overflowed := true }] := by
  rw [pushNotice, if_neg (by simp [h]), markOverflow_concat]

/-- Settles O38: the status bytes are read before the flags are cleared; a fetched notice leaves the queue. -/
theorem statusAndNoticeFetch : Obligations.StatusAndNoticeFetch := by
  refine ⟨fun s seq args h => ?_, fun s seq args h => ⟨fun hnone => ?_, fun n rest hsome => ?_⟩,
    fun s k a b c => ⟨fun hroom => ?_, fun older newest hfull hlen => ?_⟩⟩
  · refine ⟨s.eligibleSummary, fun n hn => s.eligibleSummary_getLsbD hn, (exec_served rfl h).trans (congrArg _ ?_)⟩
    show (s.opened.setSticky Sticky.reset).reply (mgmtReply seq 0x01 .ok s.opened.statusData) = _
    rw [s.opened_statusData, State.statusData, Containment.statusByte_eq]
    rfl
  · refine (exec_served rfl h).trans (congrArg _ ?_)
    show s.opened.serveNoticeFetch seq args = _
    rw [State.serveNoticeFetch, s.opened_notices, hnone]
    rfl
  · refine (exec_served rfl h).trans (congrArg _ ?_)
    show s.opened.serveNoticeFetch seq args = _
    rw [State.serveNoticeFetch, s.opened_notices, hsome]
    rfl
  · rw [State.notify, State.notifyAt, pushNotice, if_pos hroom]
    rfl
  · rw [State.notify, State.notifyAt, hfull, pushNotice_full hlen]
    rfl

/-! ### RACK_READ (R25) -/

theorem State.opened_rackAnswer (s : State) (mode : Byte) (key : Half) (page : Byte) :
    s.opened.rackAnswer mode key page = s.rackAnswer mode key page := by
  unfold State.rackAnswer State.rackIndex State.rackPage State.rackPage0
  rw [s.opened_journal, s.opened_tables]

theorem exec_rackRead {s : State} (hidle : s.ports.cport = .idle) (seq mode kh kl page : Byte) :
    exec (.rackRead seq [mode, kh, kl, page]) s = .next (s.opened.mgmtAnswer seq 0x03
      (s.rackAnswer mode (half kh kl) page).1 (s.rackAnswer mode (half kh kl) page).2) := by
  have hreaches : s.Reaches .rackRead [mode, kh, kl, page] :=
    .of_open hidle rfl (by simp) (by simp [Request.minArgs])
  refine (exec_served rfl hreaches).trans (congrArg _ ?_)
  rw [← State.opened_rackAnswer]
  rfl

section
variable {s : State} {key : Half} {k : Nat} {r : Rack}

theorem State.rackAnswer_found {mode : Byte} (hmode : mode.toNat ≤ 1)
    (hindex : s.rackIndex (mode = 1) key.toNat = some k) (hr : s.journal.racks[k]? = some r) (page : Byte) :
    s.rackAnswer mode key page = if 5 < page.toNat then (.badValue, []) else (.ok, s.rackPage k r page.toNat) := by
  have hracks : s.journal.racks.isEmpty = false := by
    cases hl : s.journal.racks with
    | nil => rw [hl] at hr; cases hr
    | cons => rfl
  simp only [State.rackAnswer, hracks, Bool.false_eq_true, if_false, if_neg (Nat.not_lt.mpr hmode), hindex, hr]

theorem State.rackAnswer_missing {mode : Byte} (hmode : mode.toNat ≤ 1)
    (hindex : s.rackIndex (mode = 1) key.toNat = none) (page : Byte) :
    s.rackAnswer mode key page = (.badIndex, []) := by
  unfold State.rackAnswer
  split
  · rfl
  · rw [if_neg (Nat.not_lt.mpr hmode), hindex]

theorem State.rackAnswer_empty (h : s.journal.racks = []) (mode page : Byte) :
    s.rackAnswer mode key page = (.badIndex, []) := by
  rw [State.rackAnswer, h]
  rfl

theorem State.rackAnswer_mode {mode : Byte} (hmode : 1 < mode.toNat) (h : s.journal.racks ≠ []) (page : Byte) :
    s.rackAnswer mode key page = (.badValue, []) := by
  rw [State.rackAnswer, if_neg (by simpa using h), if_pos hmode]

theorem State.rackIndex_byTag (hr : s.journal.racks[k]? = some r) (htag : r.tag.toNat = key.toNat)
    (hfirst : ∀ j q, j < k → s.journal.racks[j]? = some q → q.tag ≠ r.tag) :
    s.rackIndex true key.toNat = some k := by
  obtain ⟨hk, hget⟩ := List.getElem?_eq_some_iff.mp hr
  refine List.findIdx?_eq_some_iff_getElem.mpr ⟨hk, by simpa [hget] using htag, fun j hj => ?_⟩
  have hne := hfirst j _ hj (List.getElem?_eq_getElem (hj.trans hk))
  simpa [← htag] using fun h => hne (BitVec.eq_of_toNat_eq h)

theorem State.rackIndex_noTag (h : ∀ r ∈ s.journal.racks, r.tag.toNat ≠ key.toNat) :
    s.rackIndex true key.toNat = none :=
  List.findIdx?_eq_none_iff.mpr fun r hr => decide_eq_false (h r hr)

end

/-- Settles O39: the record that the key names, then its page. -/
theorem rackReadNamesARecord : Obligations.RackReadNamesARecord := by
  intro s seq kh kl page hidle data read
  have hread (mode : Byte) {res : Result} {bytes : List Byte} (h : s.rackAnswer mode (half kh kl) page = (res, bytes)) :
      read mode res bytes := (exec_rackRead hidle seq mode kh kl page).trans (by rw [h])
  have hdata (k : Nat) (r : Rack) (hcentre : page = 0 → r.centre s.journal.travel ≤ 32767) :
      s.rackPage k r page.toNat = data k r page.toNat := by
    have hstate : byte r.state.code =
        match r.state with | .entering => (0 : Byte) | .inLine => 1 | .atExit => 2 := by
      cases r.state <;> rfl
    unfold State.rackPage
    dsimp only [data]
    by_cases hzero : page.toNat = 0
    · rw [if_pos hzero, if_pos hzero, State.rackPage0, centreHalf, if_pos (hcentre (BitVec.eq_of_toNat_eq hzero)), hstate]
      rfl
    · rw [if_neg hzero, if_neg hzero]
      by_cases hone : page.toNat = 1
      · rw [if_pos hone, if_pos hone, Rack.page1]
        cases r.overlap <;> rfl
      · rw [if_neg hone, if_neg hone, Rack.creditPage]
        exact congrArg₂ _ (by cases r.credits[2 * (page.toNat - 2)]? <;> rfl)
          (by cases r.credits[2 * (page.toNat - 2) + 1]? <;> rfl)
  have hfound (mode : Byte) (hmode : mode.toNat ≤ 1) {k : Nat} {r : Rack}
      (hindex : s.rackIndex (mode = 1) (half kh kl).toNat = some k) (hr : s.journal.racks[k]? = some r) :
      (page.toNat ≤ 5 → (page = 0 → r.centre s.journal.travel ≤ 32767) → read mode .ok (data k r page.toNat)) ∧
        (5 < page.toNat → read mode .badValue []) := by
    have hanswer := State.rackAnswer_found hmode hindex hr page
    refine ⟨fun hpage hcentre => hread mode ?_, fun hpage => hread mode ?_⟩
    · rw [hanswer, if_neg (Nat.not_lt.mpr hpage), hdata k r hcentre]
    · rw [hanswer, if_pos hpage]
  refine ⟨fun r hr => hfound 0 (by decide) ?_ hr, fun hnone => hread 0 (State.rackAnswer_missing (by decide) ?_ page),
    fun k r hr htag hfirst => hfound 1 (by decide) (State.rackIndex_byTag hr htag hfirst) hr,
    fun h => hread 1 (State.rackAnswer_missing (by decide) (State.rackIndex_noTag h) page),
    fun mode h => hread mode (State.rackAnswer_empty h mode page),
    fun mode hmode h => hread mode (State.rackAnswer_mode hmode h page)⟩
  · exact if_pos (List.getElem?_eq_some_iff.mp hr).1
  · exact if_neg (Nat.not_lt.mpr (List.getElem?_eq_none_iff.mp hnone))

end Sys2Proof.Machine
end

section
/-! The open requests that read a latch, a channel and a level (R58, R78, R108): O40 and O42. -/

namespace Sys2Proof.Machine

/-! ### LATCH_READ (R78) -/

theorem State.opened_latchData (s : State) (c : Nat) : s.opened.latchData c = s.latchData c := by
  unfold State.latchData State.shownLatch
  rw [s.opened_classAt, s.opened_latchAt, s.opened_contain]

theorem exec_latchRead {s : State} (hidle : s.ports.cport = .idle) (seq b : Byte) :
    exec (.latchRead seq [b]) s = .next (if b.toNat < 12 then s.opened.mgmtAnswer seq 0x04 .ok (s.latchData b.toNat)
      else s.opened.mgmtAnswer seq 0x04 .badIndex []) := by
  have hreaches : s.Reaches .latchRead [b] := .of_open hidle rfl (by simp) (by simp [Request.minArgs])
  refine (exec_served rfl hreaches).trans (congrArg _ ?_)
  rw [← State.opened_latchData]
  rfl

theorem State.shownLatch_of_enabled {s : State} {c : Nat} (h : (s.classAt c).enable = true) :
    s.shownLatch c = s.latchAt c := if_pos h

theorem State.shownLatch_of_disabled {s : State} {c : Nat} (h : (s.classAt c).enable = false) :
    s.shownLatch c = Latch.reset := if_neg (by rw [h]; exact Bool.noConfusion)

theorem LatchState.byte_code (st : LatchState) : byte st.code =
    match st with | .clear => 0 | .pending => 1 | .recovering => 2 | .resolved => 3 | .failed => 4 := by
  cases st <;> rfl

theorem endingByte_eq (e : Option Ending) : endingByte e =
    match e with | none => (0 : Byte) | some .ok => 1 | some .fail => 2 | some .noPlan => 3 := by
  cases e with
  | none => rfl
  | some e => cases e <;> rfl

theorem Source.byte_code (src : Source) : byte src.code =
    match src with | .signature g => byte g | .node => 0x80 | .silence => 0x81 | .track => 0x82 := by
  cases src <;> rfl

theorem causeBytes_some (c : Cause) : causeBytes (some c) =
    byte c.source.code :: optByte c.zone :: (bytes2 (BitVec.ofInt 16 c.value) ++ bytes4 c.time) := rfl

/-! ### CHANNEL_READ (R58) -/

theorem State.opened_channelData (s : State) (i : Nat) (r : RouteEntry) :
    s.opened.channelData i r = s.channelData i r := by
  unfold State.channelData
  rw [s.opened_imageAt, s.opened_gateAt, s.opened_now]

theorem exec_channelRead_present {s : State} (hidle : s.ports.cport = .idle) (seq : Byte) {b : Byte} {r : RouteEntry}
    (h : s.routeAt b.toNat = some r) : exec (.channelRead seq [b]) s =
      .next (s.opened.mgmtAnswer seq 0x05 .ok (s.channelData b.toNat r)) := by
  have hreaches : s.Reaches .channelRead [b] := .of_open hidle rfl (by simp) (by simp [Request.minArgs])
  have hroute : s.opened.routeAt b.toNat = some r := (s.opened_routeAt _).trans h
  refine (exec_served rfl hreaches).trans (congrArg _ ?_)
  show s.opened.serveChannelRead seq [b] = _
  rw [State.serveChannelRead, ← State.opened_channelData]
  simp only [List.getD_cons_zero, hroute]
  rfl

theorem exec_channelRead_absent {s : State} (hidle : s.ports.cport = .idle) (seq : Byte) {b : Byte}
    (h : s.routeAt b.toNat = none) : exec (.channelRead seq [b]) s =
      .next (s.opened.mgmtAnswer seq 0x05 .badIndex []) := by
  have hreaches : s.Reaches .channelRead [b] := .of_open hidle rfl (by simp) (by simp [Request.minArgs])
  have hroute : s.opened.routeAt b.toNat = none := (s.opened_routeAt _).trans h
  refine (exec_served rfl hreaches).trans (congrArg _ ?_)
  show s.opened.serveChannelRead seq [b] = _
  rw [State.serveChannelRead]
  simp only [List.getD_cons_zero, hroute]
  rfl

section
variable {s : State} {i : Nat} {r : RouteEntry}

theorem State.channelData_sensor (h : r.kind.isSensor = true) : s.channelData i r =
    byte r.kind.code :: r.node :: r.chan :: (bytes2 (s.imageAt i).value ++
      [byte (s.imageAt i).status.code ||| bit (s.imageAt i).keepPending 7] ++ (s.imageAt i).timeBytes s.now) := by
  simp only [State.channelData, h, if_true]
  rfl

theorem State.channelData_actuator (h : r.kind.isSensor = false) : s.channelData i r =
    byte r.kind.code :: r.node :: r.chan :: (bytes2 (s.imageAt i).applied ++ [byte (s.gateAt i).owner.code] ++
      (s.gateAt i).held.bytes ++
      [bit (s.gateAt i).forceOffDue 0 ||| bit (s.gateAt i).deferred 1, byte r.group]) := by
  simp only [State.channelData, h, Bool.false_eq_true, if_false]
  rfl

end

theorem ImageCell.timeBytes_never {c : ImageCell} (h : c.status = .never) (now : Clock) :
    c.timeBytes now = [0, 0, 0, 0, 0, 0] := by
  rw [ImageCell.timeBytes, h]

theorem ImageCell.timeBytes_of_reading {c : ImageCell} {t : Clock} (h : c.status ≠ .never) (ht : c.lastReading = some t)
    (now : Clock) : c.timeBytes now = bytes4 t ++ bytes2 (word (min 65535 (now - t).toNat)) := by
  unfold ImageCell.timeBytes
  rw [ht]
  split
  · exact absurd ‹_› h
  · next heq _ => cases heq; rfl
  · next heq _ => cases heq

theorem Owner.byte_code (o : Owner) : byte o.code =
    match o with | .controller => (0 : Byte) | .level d => byte (d + 1) | .retained => 4 := by
  cases o <;> rfl

theorem HeldSlot.bytes_eq (h : HeldSlot) : h.bytes =
    match h with | .empty => [(0 : Byte), 0xFF, 0xFF] | .held v => 1 :: bytes2 v | .replayDue v => 2 :: bytes2 v := by
  cases h <;> rfl

/-- Settles O40: each byte is its field's code. -/
theorem latchAndChannelReads : Obligations.LatchAndChannelReads := by
  intro s seq b hidle flags l cause image gate channel
  have hchannel (r : RouteEntry) (h : s.routeAt b.toNat = some r) {data : List Byte}
      (hdata : s.channelData b.toNat r = byte r.kind.code :: r.node :: r.chan :: data) : channel r data :=
    (exec_channelRead_present hidle seq h).trans (by rw [hdata])
  refine ⟨fun hb he => ?_, fun hb he => ?_, fun hb => ?_, fun r hr hsensor => ⟨fun hnever => ?_, fun t ht => ?_⟩,
    fun r hr hactuator => hchannel r hr ?_, exec_channelRead_absent hidle seq⟩
  · rw [exec_latchRead hidle, if_pos hb, State.latchData, State.shownLatch_of_enabled he, LatchState.byte_code,
      endingByte_eq]
    cases (s.latchAt b.toNat).firstCause with
    | none => rfl
    | some k => rw [causeBytes_some, Source.byte_code] <;> rfl
  · rw [exec_latchRead hidle, if_pos hb, State.latchData, State.shownLatch_of_disabled he]
    rfl
  · rw [exec_latchRead hidle, if_neg (Nat.not_lt.mpr hb)]
  · refine hchannel r hr ?_
    rw [State.channelData_sensor hsensor, ImageCell.timeBytes_never hnever, hnever]
    rfl
  · refine ⟨fun h => hchannel r hr ?_, fun h => hchannel r hr ?_, fun h => hchannel r hr ?_⟩ <;>
    · rw [State.channelData_sensor hsensor, ImageCell.timeBytes_of_reading (by rw [h]; decide) ht, h]
      rfl
  · rw [State.channelData_actuator hactuator, Owner.byte_code, HeldSlot.bytes_eq]
    rfl

/-! ### LEVEL_READ (R108) -/

theorem State.opened_levelPage (s : State) (d : Nat) (l : Level) (p : Nat) :
    s.opened.levelPage d l p = s.levelPage d l p := by
  unfold State.levelPage State.levelPage0 State.touchedBytes
  rw [s.opened_levels, s.opened_now]
  simp only [State.opened_gateAt]

theorem exec_levelRead {s : State} (hidle : s.ports.cport = .idle) (seq d p : Byte) :
    exec (.levelRead seq [d, p]) s = .next (match s.levels[d.toNat]? with
      | none => s.opened.mgmtAnswer seq 0x07 .badIndex []
      | some l => if 11 < p.toNat then s.opened.mgmtAnswer seq 0x07 .badValue []
        else s.opened.mgmtAnswer seq 0x07 .ok (s.levelPage d.toNat l p.toNat)) := by
  have hreaches : s.Reaches .levelRead [d, p] := .of_open hidle rfl (by simp) (by simp [Request.minArgs])
  refine (exec_served rfl hreaches).trans (congrArg _ ?_)
  show s.opened.serveLevelRead seq [d, p] = _
  rw [State.serveLevelRead, s.opened_levels]
  simp only [State.opened_levelPage, List.getD_cons_zero, List.getD_cons_succ]
  cases s.levels[d.toNat]? <;> rfl

theorem WaitKind.byte_code (w : WaitKind) : byte w.code =
    match w with | .none => (0 : Byte) | .ack => 1 | .reading => 2 | .time => 3 | .queueRoom => 4 := by
  cases w <;> rfl

theorem bit_decide (p : Prop) [Decidable p] (n : Nat) :
    bit (decide p) n = if p then BitVec.ofNat 8 (2 ^ n) else 0 :=
  if_congr decide_eq_true_iff rfl rfl

theorem byte_add (a b : Nat) : byte (a + b) = byte a + byte b := BitVec.ofNat_add ..

theorem remainingUnits_of_reached {t now : Clock} (h : (now - t).toNat < 2 ^ 31) : remainingUnits t now = 0 :=
  if_pos (decide_eq_true h)

theorem remainingUnits_of_whole {t now : Clock} (h : 2 ^ 31 ≤ (now - t).toNat) (hwhole : (t - now).toNat % 10 = 0) :
    remainingUnits t now = min 65535 ((t - now).toNat / 10) := by
  unfold remainingUnits
  dsimp only
  rw [if_neg (by simpa [reached] using h), hwhole]
  rfl

/-- Settles O42: page 0 field by field, and the touched entries of a later page. -/
theorem levelReadShowsALevel : Obligations.LevelReadShowsALevel := by
  intro s seq d p hidle
  refine ⟨fun hnone => by rw [exec_levelRead hidle, hnone], fun l hl => ?_⟩
  intro page
  have hread {data : List Byte} (hp : p.toNat ≤ 11) (h : s.levelPage d.toNat l p.toNat = data) :
      exec (.levelRead seq [d, p]) s = .next (s.opened.mgmtAnswer seq 0x07 .ok data) := by
    rw [exec_levelRead hidle, hl]
    simp only [if_neg (Nat.not_lt.mpr hp), h]
  have hpage (hp : p = 0) {remaining : Half} {timed : Byte}
      (hremaining : optHalf (l.deadline.map fun t => remainingUnits t s.now) = remaining)
      (htimed : bit l.deadline.isSome 1 = timed) : page remaining timed := by
    refine hread (by rw [hp]; decide) ?_
    have hd : byte d.toNat = d := by rw [byte, BitVec.ofNat_toNat, BitVec.setWidth_eq]
    rw [State.levelPage, if_pos (by rw [hp]; rfl), State.levelPage0, hremaining, htimed, byte_add, WaitKind.byte_code, hd]
    rw [bit_decide]
    rfl
  refine ⟨fun hp => ?_, fun hp hnone => hpage hp (by rw [hnone]; rfl) (by rw [hnone]; rfl),
    fun t hp ht hreached => hpage hp ?_ (by rw [ht]; rfl),
    fun t hp ht hahead hwhole => hpage hp ?_ (by rw [ht]; rfl), fun hlow hhigh => hread hhigh ?_⟩
  · rw [exec_levelRead hidle, hl]
    simp only [if_pos hp]
  · rw [ht, Option.map_some, State.now, remainingUnits_of_reached hreached]
    rfl
  · rw [ht, Option.map_some, State.now, remainingUnits_of_whole hahead hwhole]
    rfl
  · rw [State.levelPage, if_neg (by omega)]
    refine congrArg (List.flatMap · (List.range 6)) (funext fun k => ?_)
    cases l.touched[6 * (p.toNat - 1) + k]? with
    | none => rfl
    | some e =>
      rw [State.touchedBytes, bit_decide]
      rfl

end Sys2Proof.Machine
end

section
/-! TABLE_READ in both views (R161): O41. -/

namespace Sys2Proof.Machine

theorem State.opened_tableAnswer (s : State) (tb idx step : Byte) :
    s.opened.tableAnswer tb idx step = s.tableAnswer tb idx step := by
  unfold State.tableAnswer State.runAnswer State.entryAnswer State.tableData State.sigAt State.routeAt State.zoneAt
    State.curveAt State.planSlot
  rw [s.opened_tables, State.opened_runAt]

theorem State.serveTableRead_opened (s : State) (seq : Byte) (args : List Byte) :
    s.opened.serveTableRead seq args = s.opened.mgmtAnswer seq 0x06
      (s.tableAnswer (args.getD 0 0) (args.getD 1 0) (args.getD 2 0)).1
      (s.tableAnswer (args.getD 0 0) (args.getD 1 0) (args.getD 2 0)).2 := by
  rw [State.serveTableRead, State.opened_tableAnswer]
  rfl

/-- TABLE_READ of a table whose request has no step. -/
theorem tableRead_reaches {s : State} (hidle : s.ports.cport = .idle) {tb : Byte} (hplan : tableNibble tb ≠ 8) (b : Byte) :
    s.Reaches .tableRead [tb, b] :=
  .of_open hidle rfl (by simp) (by simp [Request.minArgs, hplan])

theorem tableReadStep_reaches {s : State} (hidle : s.ports.cport = .idle) (tb b step : Byte) :
    s.Reaches .tableRead [tb, b, step] :=
  .of_open hidle rfl (by simp) (by simp only [Request.minArgs]; split <;> simp)

section
variable {s : State} {tb b step : Byte} {t : TableId}

theorem State.tableAnswer_noTable (hcode : TableId.ofCode (tableNibble tb) = none) :
    s.tableAnswer tb b step = (.badIndex, []) := by
  rw [State.tableAnswer, hcode]

variable (hcode : TableId.ofCode (tableNibble tb) = some t)
include hcode

theorem State.tableAnswer_outside (hindex : t.indexOk b.toNat (some step) = false) :
    s.tableAnswer tb b step = (.badIndex, []) := by
  simp [State.tableAnswer, hcode, hindex]

variable (hindex : t.indexOk b.toNat (some step) = true)
include hindex

theorem State.tableAnswer_noPart
    (hpart : (tableBit3 tb || !readsPart t (tablePart tb) || (tableRun tb && t ≠ .signature)) = true) :
    s.tableAnswer tb b step = (.badValue, []) := by
  simp only [State.tableAnswer, hcode, hindex, hpart, Bool.not_true, Bool.false_eq_true, if_false, if_true]

theorem State.tableAnswer_entry (hpart : (tableBit3 tb || !readsPart t (tablePart tb)) = false)
    (hview : tableRun tb = false) :
    s.tableAnswer tb b step = s.entryAnswer t b.toNat step.toNat (tablePart tb) := by
  simp only [State.tableAnswer, hcode, hindex, hpart, hview, Bool.not_true, Bool.false_and, Bool.or_false,
    Bool.false_eq_true, if_false]

end

theorem State.entryAnswer_present {s : State} {t : TableId} {i step part : Nat} {d : List Byte}
    (h : s.tableData t i step part = some d) : s.entryAnswer t i step part = (.ok, d) := by
  rw [State.entryAnswer, h]

theorem State.entryAnswer_absent {s : State} {t : TableId} {i step part : Nat}
    (h : s.tableData t i step part = none) : s.entryAnswer t i step part = (.empty, []) := by
  rw [State.entryAnswer, h]

theorem TableId.indexOk_of_ne_plan {t : TableId} (h : t ≠ .plan) (i : Nat) (step : Option Byte) :
    t.indexOk i step = decide (i < t.size) := by
  cases t with
  | plan => exact absurd rfl h
  | line | route | zone | curve | signature | cls | select => exact Bool.and_true _

theorem TableId.indexOk_plan (i : Nat) (step : Byte) :
    TableId.plan.indexOk i (some step) = (decide (i < 24) && decide (step.toNat < 12)) := rfl

theorem State.runAnswer_present {s : State} {g : Nat} {e : SigEntry} (h : s.sigAt g = some e) :
    s.runAnswer g = (.ok, (s.runAt g).data) := by
  rw [State.runAnswer, h]
  rfl

theorem State.runAnswer_absent {s : State} {g : Nat} (h : s.sigAt g = none) : s.runAnswer g = (.empty, []) := by
  rw [State.runAnswer, h]
  rfl

theorem LastOutcome.byte_code (o : LastOutcome) : byte o.code = match o with | .none => 0 | .hit => 1 | .no => 2 := by
  cases o <;> rfl

theorem State.tableAnswer_run {s : State} {tb b step : Byte} (hcode : TableId.ofCode (tableNibble tb) = some .signature)
    (hb : b.toNat < 48) (hpart : (tableBit3 tb || !readsPart .signature (tablePart tb)) = false)
    (hview : tableRun tb = true) : s.tableAnswer tb b step = s.runAnswer b.toNat := by
  have hindex : TableId.signature.indexOk b.toNat (some step) = true :=
    (TableId.indexOk_of_ne_plan (by decide) ..).trans (decide_eq_true hb)
  simp [State.tableAnswer, hcode, hindex, hpart, hview]

theorem State.classAt_of_lt (s : State) {c : Nat} (h : c < 12) : s.tables.cls[c]? = some (s.classAt c) := by
  rw [State.classAt, Vector.getElem?_eq_getElem h]
  rfl

/-! ### The request -/

section
variable {s : State} (hidle : s.ports.cport = .idle) (seq b : Byte) {tb : Byte}
include hidle

theorem exec_tableRead (hplan : tableNibble tb ≠ 8) : exec (.tableRead seq [tb, b]) s =
    .next (s.opened.mgmtAnswer seq 0x06 (s.tableAnswer tb b 0).1 (s.tableAnswer tb b 0).2) :=
  (exec_served rfl (tableRead_reaches hidle hplan b)).trans (congrArg _ (s.serveTableRead_opened seq [tb, b]))

theorem exec_tableReadRun (hplan : tableNibble tb ≠ 8) : exec (.tableReadRun seq [tb, b]) s =
    .next (s.opened.mgmtAnswer seq 0x06 (s.tableAnswer tb b 0).1 (s.tableAnswer tb b 0).2) :=
  (exec_served rfl (tableRead_reaches hidle hplan b)).trans (congrArg _ (s.serveTableRead_opened seq [tb, b]))

theorem exec_tableRead_step (step : Byte) : exec (.tableRead seq [tb, b, step]) s =
    .next (s.opened.mgmtAnswer seq 0x06 (s.tableAnswer tb b step).1 (s.tableAnswer tb b step).2) :=
  (exec_served rfl (tableReadStep_reaches hidle tb b step)).trans
    (congrArg _ (s.serveTableRead_opened seq [tb, b, step]))

end

/-- Settles O41: table by table, the entry, its absence and the index outside. -/
theorem tableReadReturnsEntries : Obligations.TableReadReturnsEntries := by
  intro s seq b step hidle read readRun readStep run
  have hread {tb : Byte} {res : Result} {data : List Byte} (hplan : tableNibble tb ≠ 8)
      (h : s.tableAnswer tb b 0 = (res, data)) : read tb res data :=
    (exec_tableRead hidle seq b hplan).trans (by rw [h])
  have hreadRun {tb : Byte} {res : Result} {data : List Byte} (hplan : tableNibble tb ≠ 8)
      (h : s.tableAnswer tb b 0 = (res, data)) : readRun tb res data :=
    (exec_tableReadRun hidle seq b hplan).trans (by rw [h])
  have hreadStep {res : Result} {data : List Byte} (h : s.tableAnswer 0x80 b step = (res, data)) :
      readStep res data := (exec_tableRead_step hidle seq b step).trans (by rw [h])
  have hentry {tb : Byte} (t : TableId) (hcode : TableId.ofCode (tableNibble tb) = some t) (hplan : t ≠ .plan)
      (hnibble : tableNibble tb ≠ 8) (hpart : (tableBit3 tb || !readsPart t (tablePart tb)) = false)
      (hview : tableRun tb = false) (hb : b.toNat < t.size) :
      (∀ d, s.tableData t b.toNat 0 (tablePart tb) = some d → read tb .ok d) ∧
        (s.tableData t b.toNat 0 (tablePart tb) = none → read tb .empty []) := by
    have hanswer := State.tableAnswer_entry (s := s) (b := b) (step := 0) hcode
      ((TableId.indexOk_of_ne_plan hplan ..).trans (decide_eq_true hb)) hpart hview
    exact ⟨fun d h => hread hnibble (hanswer.trans (State.entryAnswer_present h)),
      fun h => hread hnibble (hanswer.trans (State.entryAnswer_absent h))⟩
  have houtside {tb : Byte} (t : TableId) (hcode : TableId.ofCode (tableNibble tb) = some t) (hplan : t ≠ .plan)
      (hnibble : tableNibble tb ≠ 8) (hb : t.size ≤ b.toNat) : read tb .badIndex [] :=
    hread hnibble (State.tableAnswer_outside hcode
      ((TableId.indexOk_of_ne_plan hplan ..).trans (decide_eq_false (Nat.not_lt.mpr hb))))
  have hnoPart {tb : Byte} (t : TableId) (hcode : TableId.ofCode (tableNibble tb) = some t) (hplan : t ≠ .plan)
      (hpart : (tableBit3 tb || !readsPart t (tablePart tb) || (tableRun tb && t ≠ .signature)) = true)
      (hb : b.toNat < t.size) : s.tableAnswer tb b 0 = (.badValue, []) :=
    State.tableAnswer_noPart hcode ((TableId.indexOk_of_ne_plan hplan ..).trans (decide_eq_true hb)) hpart
  have hline := hentry (tb := 0x10) .line (by decide) (by decide) (by decide) (by decide) (by decide)
  have hroute := hentry (tb := 0x20) .route (by decide) (by decide) (by decide) (by decide) (by decide)
  have hzoneFirst := hentry (tb := 0x31) .zone (by decide) (by decide) (by decide) (by decide) (by decide)
  have hzoneLast := hentry (tb := 0x32) .zone (by decide) (by decide) (by decide) (by decide) (by decide)
  have hcurve := hentry (tb := 0x40) .curve (by decide) (by decide) (by decide) (by decide) (by decide)
  have hcurveFirst := hentry (tb := 0x41) .curve (by decide) (by decide) (by decide) (by decide) (by decide)
  have hcurveLast := hentry (tb := 0x42) .curve (by decide) (by decide) (by decide) (by decide) (by decide)
  have hsignature := hentry (tb := 0x50) .signature (by decide) (by decide) (by decide) (by decide) (by decide)
  have hclass := hentry (tb := 0x60) .cls (by decide) (by decide) (by decide) (by decide) (by decide)
  have hselect := hentry (tb := 0x70) .select (by decide) (by decide) (by decide) (by decide) (by decide)
  have hplan (hb : b.toNat < 24) (hstep : step.toNat < 12) :
      s.tableAnswer 0x80 b step = s.entryAnswer .plan b.toNat step.toNat 0 :=
    State.tableAnswer_entry (t := .plan) (by decide) (by simp [TableId.indexOk_plan, hb, hstep]) (by decide) (by decide)
  have hrun (hb : b.toNat < 48) : s.tableAnswer 0x54 b 0 = s.runAnswer b.toNat :=
    State.tableAnswer_run (by decide) hb (by decide) (by decide)
  have hzero (hb : b = 0) : b.toNat < TableId.line.size := by rw [hb]; decide
  have hmap {α β : Type} {o : Option α} {f : α → β} {a : α} (h : o = some a) : o.map f = some (f a) := by rw [h]; rfl
  have hmapNone {α β : Type} {o : Option α} {f : α → β} (h : o = none) : o.map f = none := by rw [h]; rfl
  refine ⟨fun l hb hl => (hline (hzero hb)).1 _ (hmap hl), fun hb hl => (hline (hzero hb)).2 (hmapNone hl), fun hb => ?_,
    fun r hb hr => (hroute hb).1 _ (hmap hr), fun hb hr => (hroute hb).2 (hmapNone hr), fun hb => ?_,
    fun z hb hz => ⟨(hzoneFirst hb).1 _ (hmap hz), (hzoneLast hb).1 _ (hmap hz), ?_⟩,
    fun hb hz => ⟨(hzoneFirst hb).2 (hmapNone hz), (hzoneLast hb).2 (hmapNone hz), ?_⟩, fun hb tb htb => ?_,
    fun hb hc => ⟨(hcurve hb).2 (hmapNone hc), (hcurveFirst hb).2 (hmapNone hc), (hcurveLast hb).2 (hmapNone hc)⟩,
    fun c hb hc => ⟨(hcurve hb).1 _ (hmap hc), (hcurveFirst hb).1 _ (hmap hc), (hcurveLast hb).1 _ (hmap hc)⟩,
    fun e hb he => (hsignature hb).1 _ (hmap he), fun hb he => (hsignature hb).2 (hmapNone he), fun hb => ?_,
    fun hb => (hclass hb).1 _ (hmap (s.classAt_of_lt hb)),
    fun r hb hr => (hselect hb).1 _ (hmap (congrArg Option.join hr)),
    fun hb hr => (hselect hb).2 (hmapNone (congrArg Option.join hr)), fun hb => ?_,
    fun p hb hstep hp => hreadStep ?_, fun hb hstep hp => hreadStep ?_, fun hout => hreadStep ?_, fun n hn => ?_,
    fun e hb he => hreadRun (by decide) ?_, fun hb he => hreadRun (by decide) ?_,
    fun hb => hreadRun (by decide) (hnoPart .cls (by decide) (by decide) (by decide) hb)⟩
  · have hpos : 1 ≤ b.toNat := Nat.one_le_iff_ne_zero.mpr fun h => hb (BitVec.eq_of_toNat_eq h)
    exact houtside .line (by decide) (by decide) (by decide) hpos
  · exact houtside .route (by decide) (by decide) (by decide) hb
  · exact hread (by decide) (hnoPart .zone (by decide) (by decide) (by decide) hb)
  · exact hread (by decide) (hnoPart .zone (by decide) (by decide) (by decide) hb)
  · rcases htb with rfl | rfl | rfl | rfl | rfl | rfl
    · exact houtside .zone (by decide) (by decide) (by decide) hb
    · exact houtside .zone (by decide) (by decide) (by decide) hb
    · exact houtside .zone (by decide) (by decide) (by decide) hb
    · exact houtside .curve (by decide) (by decide) (by decide) hb
    · exact houtside .curve (by decide) (by decide) (by decide) hb
    · exact houtside .curve (by decide) (by decide) (by decide) hb
  · exact houtside .signature (by decide) (by decide) (by decide) hb
  · exact houtside .select (by decide) (by decide) (by decide) hb
  · exact (hplan hb hstep).trans (State.entryAnswer_present (hmap hp))
  · exact (hplan hb hstep).trans (State.entryAnswer_absent (hmapNone hp))
  · refine State.tableAnswer_outside (t := .plan) (by decide) ?_
    rw [TableId.indexOk_plan, Bool.and_eq_false_iff, decide_eq_false_iff_not, decide_eq_false_iff_not]
    omega
  · rcases hn with rfl | rfl
    · exact hread (by decide) (State.tableAnswer_noTable (by decide))
    · exact hread (by decide) (State.tableAnswer_noTable (by decide))
  · rw [hrun hb, State.runAnswer_present he, SigRun.data, LastOutcome.byte_code]
    rfl
  · rw [hrun hb, State.runAnswer_absent he]

end Sys2Proof.Machine
end

section
/-! Requests that change the part's mode, and the events of sending and of the time base (R76, R82, R114, R120, R129, R145,
R154, R156, R157, R174, R177): O43, O46, O47, O48 and O51. -/

namespace Sys2Proof.Machine

/-! ### Deadlines and the ends of sending (R114, R120, R145) -/

theorem dueAt_some_of_lt {d now : Clock} (h : (now - d).toNat < 2 ^ 31) : dueAt (some d) now = true :=
  decide_eq_true h

theorem dueAt_eq_false {deadline : Option Clock} {now : Clock} (h : ∀ d, deadline = some d → 2 ^ 31 ≤ (now - d).toNat) :
    dueAt deadline now = false := by
  cases deadline with
  | none => rfl
  | some d => exact decide_eq_false (Nat.not_lt.mpr (h d rfl))

/-- Settles O43: the lock's deadline is 50 units ahead, and its expiry ends it once reached. -/
theorem sequenceLockHolds : Obligations.SequenceLockHolds := by
  intro s seq args
  refine ⟨fun h => (exec_served rfl h).trans (congrArg Host.Outcome.next ?_), fun h => (exec_served rfl h).trans (congrArg Host.Outcome.next ?_),
    fun d hd hreached => congrArg Host.Outcome.next ?_, fun hahead => congrArg Host.Outcome.next ?_⟩
  · show s.opened.serveSeqLock seq args = _
    rw [State.serveSeqLock, s.opened_now]
    rfl
  · rfl
  · rw [State.takeLockExpiry, State.now, hd, if_pos (dueAt_some_of_lt hreached)]
  · rw [State.takeLockExpiry, State.now, dueAt_eq_false hahead, if_neg Bool.false_ne_true]

theorem State.beginCheck_of_waiting {s : State} (hengine : s.mgmt.engine = .checking) (hbegan : s.mgmt.checkBegan = none) :
    s.beginCheck = s.setCheck (some s.time.clock) := if_pos ⟨hengine, hbegan⟩

theorem State.beginCheck_of_not_waiting {s : State} (h : s.mgmt.engine ≠ .checking ∨ s.mgmt.checkBegan ≠ none) :
    s.beginCheck = s := if_neg fun k => h.elim (· k.1) (· k.2)

theorem State.replyEnded_of_replying {s : State} {f : Sys2Proof.Frame} (h : s.ports.cport = .replying f) :
    s.replyEnded = (s.setCPort .idle).beginCheck := by
  rw [State.replyEnded, h]

theorem State.replyEnded_of_not_replying {s : State} (h : ∀ f, s.ports.cport ≠ .replying f) : s.replyEnded = s := by
  unfold State.replyEnded
  split
  next f hf => exact absurd hf (h f)
  next => rfl

/-- Settles O51: each end needs something to end. -/
theorem endsOfSendingAndArrival : Obligations.EndsOfSendingAndArrival := by
  intro s
  refine ⟨fun f hf hengine hbegan => congrArg Host.Outcome.next ?_, fun f hf h => congrArg Host.Outcome.next ?_,
    fun h => congrArg Host.Outcome.next (State.replyEnded_of_not_replying h), fun f t hf ht => congrArg Host.Outcome.next ?_,
    fun f hf ht => congrArg Host.Outcome.next ?_, fun hf => congrArg Host.Outcome.next ?_, fun t ht => congrArg Host.Outcome.next ?_, fun ht => congrArg Host.Outcome.next ?_⟩
  · rw [State.replyEnded_of_replying hf]
    exact State.beginCheck_of_waiting hengine hbegan
  · rw [State.replyEnded_of_replying hf]
    exact State.beginCheck_of_not_waiting h
  · have hkept : (s.setSending none).ports.trans = some t := ht
    simp only [State.sendEnded, hf, hkept]
  · have hkept : (s.setSending none).ports.trans = none := ht
    simp only [State.sendEnded, hf, hkept]
  · simp only [State.sendEnded, hf]
  · simp only [State.replyBegins, ht]
  · simp only [State.replyBegins, ht]

/-! ### Notices, and the entry to ARMED -/

theorem State.notify_notices (k : NoticeKind) (a b c : Half) (s : State) : (s.notify k a b c).notices ≠ [] :=
  pushNotice_ne_nil _ _

theorem State.syncSilence_notices (s : State) : s.syncSilence.notices = s.notices := by
  obtain ⟨d, h⟩ := syncSilence_eq s
  rw [h]
  rfl

theorem State.enterArmed_mgmt (s : State) : s.enterArmed.mgmt = s.mgmt :=
  s.syncSilence.runEvaluate_frame.mgmt.trans s.syncSilence_mgmt

theorem State.enterArmed_tables (s : State) : s.enterArmed.tables = s.tables := by
  refine s.syncSilence.runEvaluate_frame.tables.trans ?_
  obtain ⟨d, h⟩ := syncSilence_eq s
  rw [h]
  rfl

theorem State.enterArmed_contain (s : State) : s.enterArmed.contain = s.contain := by
  refine s.syncSilence.runEvaluate_frame.contain.trans ?_
  obtain ⟨d, h⟩ := syncSilence_eq s
  rw [h]
  rfl

theorem State.enterArmed_watchDeadline (s : State) : s.enterArmed.time.watchDeadline = s.time.watchDeadline := by
  rw [State.enterArmed, s.syncSilence.runEvaluate_frame.time, s.syncSilence_watchDeadline]

theorem State.enterArmed_notices {s : State} (h : s.notices ≠ []) : s.enterArmed.notices ≠ [] :=
  s.syncSilence.runEvaluate_frame.notices (by rwa [s.syncSilence_notices])

/-! ### ARM and the check's completion (R154, R156) -/

theorem State.completeCheck_idle {s : State} (h : s.mgmt.engine ≠ .checking ∨ s.mgmt.checkBegan = none) :
    s.completeCheck = s := by
  refine if_neg fun ⟨hengine, hbegan⟩ => ?_
  rcases h with h | h
  · exact h hengine
  · rw [h] at hbegan
    cases hbegan

theorem State.completeCheck_running {s : State} (hengine : s.mgmt.engine = .checking) (hbegan : s.mgmt.checkBegan ≠ none) :
    s.completeCheck = match s.tables.check with
      | none => s.checkPassed
      | some d => s.checkFailed d :=
  if_pos ⟨hengine, Option.isSome_iff_ne_none.mpr hbegan⟩

/-- Settles O46: ARM by the engine state, the completion by what the check found. -/
theorem armAndCheckCompletion : Obligations.ArmAndCheckCompletion := by
  refine ⟨fun s seq args h => ?_, fun s => ⟨fun hidle => congrArg Host.Outcome.next (State.completeCheck_idle hidle),
    fun hengine hbegan => ⟨fun d hd => congrArg Host.Outcome.next ?_, fun hpass => ?_⟩⟩⟩
  · have hserve := exec_served (c := .arm seq args) rfl h
    have hengine : s.opened.engine = s.mgmt.engine := s.opened_engine
    refine ⟨fun hc => hserve.trans (congrArg Host.Outcome.next ?_), fun hc => hserve.trans (congrArg Host.Outcome.next ?_)⟩
    · exact if_pos (hengine.trans hc)
    · exact if_neg (by rw [hengine]; exact hc)
  · rw [State.completeCheck_running hengine hbegan, hd]
    rfl
  · refine ⟨s.checkPassed, congrArg Host.Outcome.next ?_, rfl, ?_, ?_, ?_, ?_, ?_, ?_⟩
    · rw [State.completeCheck_running hengine hbegan, hpass]
    · rw [State.checkPassed, State.enterArmed_mgmt]
      rfl
    · rw [State.checkPassed, State.enterArmed_mgmt]
      rfl
    · rw [State.checkPassed, State.enterArmed_mgmt]
      rfl
    · exact State.enterArmed_notices (State.notify_notices _ _ _ _ _)
    · exact State.enterArmed_tables _
    · exact State.enterArmed_contain _

/-! ### FAULT_CLEAR, MASK_SET and CONTAIN_CLEAR (R76, R82, R129) -/

theorem State.opened_classMatches (s : State) (p : Nat → Bool) : s.opened.classMatches p = s.classMatches p := by
  unfold State.classMatches State.sigAt
  simp only [s.opened_tables, State.opened_runAt]

theorem State.classMatches_iff (s : State) (p : Nat → Bool) : s.classMatches p = true ↔
    ∃ g e, g < 48 ∧ s.sigAt g = some e ∧ p e.cls = true ∧ (s.runAt g).last = .hit := by
  simp only [State.classMatches, List.any_eq_true, List.mem_range]
  constructor
  · rintro ⟨g, hg, hmatch⟩
    split at hmatch
    next e he =>
      obtain ⟨hcls, hlast⟩ := (Bool.and_eq_true _ _).mp hmatch
      exact ⟨g, e, hg, he, hcls, of_decide_eq_true hlast⟩
    next => cases hmatch
  · rintro ⟨g, e, hg, he, hcls, hlast⟩
    refine ⟨g, hg, ?_⟩
    rw [he]
    simp [hcls, hlast]

theorem Latch.settled_iff (l : Latch) : l.settled = true ↔ l.state = .resolved ∨ l.state = .failed := by
  simp [Latch.settled]

theorem State.Reaches.of_guarded {s : State} {r : Request} {args : List Byte} (hidle : s.ports.cport = .idle)
    (hprefix : s.mgmt.prefixArmed = true) (hengine : s.mgmt.engine ≠ .checking) (hfits : args.length ≤ 15)
    (hcomplete : r.minArgs args ≤ args.length) : s.Reaches r args where
  idle := hidle
  fits := hfits
  complete := hcomplete
  prefixed _ := hprefix
  notBusy _ _ := hengine

/-- Settles O48: the latch's state, and the containment signatures' last outcomes, decide. -/
theorem faultContainClearAndMaskSet : Obligations.FaultContainClearAndMaskSet := by
  refine ⟨fun s seq b m hengine hidle hprefix => ?_, fun s seq args h => ?_⟩
  · have hclear := exec_served (c := .faultClear seq [b]) rfl
      (State.Reaches.of_guarded (r := .faultClear) (args := [b]) hidle hprefix hengine (by simp) (by simp [Request.minArgs]))
    have hmask := exec_served (c := .maskSet seq [b, m]) rfl
      (State.Reaches.of_guarded (r := .maskSet) (args := [b, m]) hidle hprefix hengine (by simp) (by simp [Request.minArgs]))
    have hlatch := s.opened_latchAt b.toNat
    have hserve (hb : b.toNat < 12) : s.opened.serve .faultClear seq [b] = if (s.latchAt b.toNat).settled then
        (s.opened.clearLatch b.toNat).answer .faultClear seq .ok []
        else s.opened.answer .faultClear seq .notSettled [] := by
      rw [← hlatch]
      exact if_pos hb
    refine ⟨fun hb => hclear.trans (congrArg Host.Outcome.next (if_neg (Nat.not_lt.mpr hb))),
      fun hb hsettled => hclear.trans (congrArg Host.Outcome.next ?_), fun hb hresolved hfailed => hclear.trans (congrArg Host.Outcome.next ?_), hmask⟩
    · rw [hserve hb, if_pos ((Latch.settled_iff _).mpr hsettled)]
      rfl
    · rw [hserve hb, if_neg (by rw [Latch.settled_iff]; exact fun k => k.elim hresolved hfailed)]
      rfl
  · have hclear := exec_served (c := .containClear seq args) rfl h
    have hserve : s.opened.serve .containClear seq args = if s.contain.engaged then
        if s.classMatches (fun c => c ≤ 2) then s.opened.answer .containClear seq .stillMatching []
        else s.opened.disengage.answer .containClear seq .ok []
        else s.opened.answer .containClear seq .ok [] := by
      rw [← s.opened_contain, ← s.opened_classMatches]
      rfl
    have hmatches := s.classMatches_iff fun c => c ≤ 2
    simp only [decide_eq_true_eq] at hmatches
    refine ⟨fun hoff => hclear.trans (congrArg Host.Outcome.next ?_), fun hon hmatch => hclear.trans (congrArg Host.Outcome.next ?_),
      fun hon hno => hclear.trans (congrArg Host.Outcome.next ?_)⟩
    · rw [hserve, hoff, if_neg Bool.false_ne_true]
      rfl
    · rw [hserve, if_pos hon, if_pos (hmatches.mpr hmatch)]
      rfl
    · have hquiet : ¬ s.classMatches (fun c => c ≤ 2) = true := fun k => by
        obtain ⟨g, e, hg, he, hcls, hlast⟩ := hmatches.mp k
        exact hno g e hg he hcls hlast
      rw [hserve, if_pos hon, if_neg hquiet, State.disengage, s.opened_contain]
      rfl

end Sys2Proof.Machine
end

section
/-! DISARM, PARK, WAKE and SOFT_RESET (R157, R158, R174, R177): O47 and O50. -/

namespace Sys2Proof.Machine

/-! ### DISARM and PARK (R157, R174) -/

theorem State.anyRetained_iff (s : State) : s.anyRetained = true ↔ ∃ i, i < 64 ∧ (s.gateAt i).owner = .retained := by
  simp [State.anyRetained, State.ownedBy, List.filter_eq_nil_iff, Config.routes]

theorem State.opened_anyRetained (s : State) : s.opened.anyRetained = s.anyRetained := by
  unfold State.anyRetained State.ownedBy
  simp only [State.opened_gateAt]

theorem State.busy_iff (s : State) : (!s.opened.levels.isEmpty || s.opened.anyRetained) = true ↔
    s.levels ≠ [] ∨ ∃ i, i < 64 ∧ (s.gateAt i).owner = .retained := by
  rw [s.opened_levels, s.opened_anyRetained, Bool.or_eq_true, s.anyRetained_iff]
  simp

theorem State.notIdle_iff (s : State) : (!s.opened.journal.racks.isEmpty || !s.opened.levels.isEmpty) = true ↔
    s.journal.racks ≠ [] ∨ s.levels ≠ [] := by
  rw [s.opened_levels, s.opened_journal, Bool.or_eq_true]
  simp

section
variable {s : State} {seq : Byte} {args : List Byte}

theorem exec_disarm (h : s.Reaches .disarm args) : exec (.disarm seq args) s = .next (s.opened.serveDisarm seq args) :=
  exec_served rfl h

theorem exec_park (h : s.Reaches .park args) : exec (.park seq args) s = .next (s.opened.servePark seq args) :=
  exec_served rfl h

theorem exec_wake (h : s.Reaches .wake args) : exec (.wake seq args) s = .next (s.opened.serveWake seq args) :=
  exec_served rfl h

end

theorem State.disarmed_eq (s : State) : s.opened.disarmed =
    ((((s.opened.setJournal { s.journal with racks := [], overflow := false }).notify .journalDropped
      (word s.journal.racks.length) 0xFFFF 0xFFFF).setEngine .config).setSilence none) := by
  rw [State.disarmed, State.emptyJournal, s.opened_journal]
  exact State.syncSilence_eq_none (show Engine.config ≠ .armed by decide)

theorem State.parked_eq {s : State} {l : LineRecord} (hl : s.tables.line = some l) (traffic : Bool) :
    s.opened.parked traffic = ((((s.opened.setTraffic traffic).setEngine .watch).setSilence none).setWatch
      (some (s.time.clock + BitVec.ofNat 32 (100 * l.watchInterval)))) := by
  have hsync : ((s.opened.setTraffic traffic).setEngine .watch).syncSilence =
      ((s.opened.setTraffic traffic).setEngine .watch).setSilence none :=
    State.syncSilence_eq_none (show Engine.watch ≠ .armed by decide)
  have hnext : (((s.opened.setTraffic traffic).setEngine .watch).setSilence none).nextWatch =
      some (s.time.clock + BitVec.ofNat 32 (100 * l.watchInterval)) := by
    show s.opened.tables.line.map (fun l => s.opened.time.clock + seconds l.watchInterval) = _
    rw [s.opened_tables, hl, s.opened_clock]
    rfl
  show State.setWatch _ _ = _
  rw [hsync, hnext]

/-- The reply that a request gets while notices are queued (R115, R152). -/
theorem State.mgmtAnswer_cport {s : State} (h : s.notices ≠ []) (seq code : Byte) (res : Result) (data : List Byte) :
    (s.mgmtAnswer seq code res data).ports.cport = .replying
      { dst := 61, src := 62, kind := Kind.mgmtReply, flags := { attn := true }, seq := seq,
        payload := code :: byte res.code :: data } := by
  have hattn : (s.setResult res).attn = true := by
    simpa [State.attn] using h
  show CPort.replying { mgmtReply seq code res data with flags := _ } = _
  rw [hattn]
  rfl

theorem State.endWatch_engine (cause : WakeCause) (cls : Option Nat) (s : State) :
    (s.endWatch cause cls).mgmt.engine = .armed := by
  rw [State.endWatch, State.enterArmed_mgmt]
  rfl

theorem State.endWatch_watchDeadline (cause : WakeCause) (cls : Option Nat) (s : State) :
    (s.endWatch cause cls).time.watchDeadline = none := by
  rw [State.endWatch, State.enterArmed_watchDeadline]
  rfl

theorem State.endWatch_notices (cause : WakeCause) (cls : Option Nat) (s : State) :
    (s.endWatch cause cls).notices ≠ [] :=
  State.enterArmed_notices (State.notify_notices _ _ _ _ _)

/-- WAKE in WATCH (R177). -/
theorem exec_wake_watch {s : State} {seq : Byte} {args : List Byte} (h : s.Reaches .wake args)
    (hwatch : s.mgmt.engine = .watch) :
    ∃ t, exec (.wake seq args) s = .next t ∧ t = (s.opened.endWatch .request none).mgmtAnswer seq 0x14 .ok [] ∧
      t.mgmt.engine = .armed ∧ t.time.watchDeadline = none ∧ t.notices ≠ [] ∧ t.mgmt.lastResult = some .ok ∧
      t.ports.cport = .replying { dst := 61, src := 62, kind := Kind.mgmtReply, flags := { attn := true }, seq := seq,
                                  payload := [0x14, 0] } := by
  have hnotices := s.opened.endWatch_notices .request none
  have hengine := s.opened.endWatch_engine .request none
  have hdeadline := s.opened.endWatch_watchDeadline .request none
  have hwake : s.opened.serveWake seq args = (s.opened.endWatch .request none).mgmtAnswer seq 0x14 .ok [] :=
    if_pos (s.opened_engine.trans hwatch)
  rw [exec_wake h, hwake]
  generalize s.opened.endWatch .request none = u at *
  exact ⟨_, rfl, rfl, hengine, hdeadline, hnotices, rfl, State.mgmtAnswer_cport hnotices seq 0x14 .ok []⟩

/-- Settles O47: each refusal by its premise; PARK and WAKE by the state they leave. -/
theorem disarmParkAndWake : Obligations.DisarmParkAndWake := by
  refine ⟨fun s seq b args => ⟨fun h => ⟨fun hnot => ?_, fun harmed hbusy => ?_, fun harmed hlevels hfree => ?_⟩,
    fun h => ⟨fun hnot => ?_, fun harmed hbusy => ?_, fun l harmed hracks hlevels hl => ?_⟩⟩,
    fun s seq args h => ⟨fun hwatch => ?_, fun hnot => ?_⟩⟩
  · refine (exec_disarm h).trans (congrArg Host.Outcome.next (if_pos ?_))
    rw [s.opened_engine]
    exact hnot
  · refine (exec_disarm h).trans (congrArg Host.Outcome.next ?_)
    rw [State.serveDisarm, if_neg (by rw [s.opened_engine]; exact not_not.mpr harmed), if_pos (s.busy_iff.mpr hbusy)]
    rfl
  · have hidle : ¬ (!s.opened.levels.isEmpty || s.opened.anyRetained) = true := fun k =>
      (s.busy_iff.mp k).elim (· hlevels) fun ⟨i, hi, howner⟩ => hfree i hi howner
    refine (exec_disarm h).trans (congrArg Host.Outcome.next ?_)
    rw [State.serveDisarm, if_neg (by rw [s.opened_engine]; exact not_not.mpr harmed), if_neg hidle, s.disarmed_eq]
    rfl
  · refine (exec_park h).trans (congrArg Host.Outcome.next (if_pos ?_))
    rw [s.opened_engine]
    exact hnot
  · refine (exec_park h).trans (congrArg Host.Outcome.next ?_)
    rw [State.servePark, if_neg (by rw [s.opened_engine]; exact not_not.mpr harmed), if_pos (s.notIdle_iff.mpr hbusy)]
    rfl
  · have hidle : ¬ (!s.opened.journal.racks.isEmpty || !s.opened.levels.isEmpty) = true := fun k =>
      (s.notIdle_iff.mp k).elim (· hracks) (· hlevels)
    refine (exec_park h).trans (congrArg Host.Outcome.next ?_)
    rw [State.servePark, if_neg (by rw [s.opened_engine]; exact not_not.mpr harmed), if_neg hidle, State.parked_eq hl]
    rfl
  · exact exec_wake_watch h hwatch
  · exact (exec_wake h).trans (congrArg Host.Outcome.next (if_neg (by rw [s.opened_engine]; exact hnot)))

/-! ### SOFT_RESET (R158) -/

theorem State.orphanLine_eq (s : State) : ∃ x, s.orphanLine = s.setTrans x := by
  unfold State.orphanLine
  split
  · split
    · exact ⟨_, rfl⟩
    · exact ⟨s.ports.trans, rfl⟩
  · exact ⟨s.ports.trans, rfl⟩

/-- SOFT_RESET's steps, as one change of the state. -/
theorem State.softReset_eq (s : State) : ∃ x, s.softReset = { s with
    image := s.image.map fun c => { ImageCell.reset with keepPending := c.keepPending }
    monitor := Vector.replicate 48 SigRun.reset
    latches := Vector.replicate 12 Latch.reset
    journal := { s.journal with racks := [], overflow := false }
    levels := []
    gate := { s.gate with
      cells := s.gate.cells.map fun c => { c with owner := .controller, held := .empty, handBack := none }
      lock := none }
    arbiter := { s.arbiter with queue := s.arbiter.queue.filter fun q => !softRemoved q, room := [] }
    ports := { s.ports with trans := x, misses := Vector.replicate 61 0, sticky := Sticky.reset }
    mgmt := { s.mgmt with engine := .config, checkBegan := none, staging := none, prefixArmed := false }
    notices := [{ kind := .restarted, time := s.time.clock, a := word s.mgmt.engine.code, b := 0xFFFF, c := 0xFFFF,
                  overflowed := false }]
    time := { s.time with silence := none, watchDeadline := none, creditDue := false } } := by
  obtain ⟨x, hx⟩ := s.softStop.orphanLine_eq
  refine ⟨x, ?_⟩
  rw [State.softReset, State.softOrders, hx]
  simp only [State.softViews, State.softStop, State.emptyJournal, State.setEngine, State.setCheck, State.setSilence,
    State.setWatch, State.setTrans, State.setJournal, State.notify, State.notifyAt, State.setNotices, State.now,
    State.engine]
  rfl

theorem softRemoved_eq_false_iff (q : QFrame) : (!softRemoved q) = true ↔ (∀ d st i, q.origin ≠ .plan d st i) ∧
    ∀ i, q.origin ≠ .planOrphan i ∧ q.origin ≠ .replay i ∧ q.origin ≠ .handBack i := by
  unfold softRemoved
  cases q.origin <;> simp

theorem vector_map_getD {α β : Type} {n : Nat} (f : α → β) (v : Vector α n) (i : Nat) (a : α) :
    ((v.map f)[i]?).getD (f a) = f (v[i]?.getD a) := by
  rw [Vector.getElem?_map, Option.getD_map]

/-- Settles O50: the state that SOFT_RESET leaves, block by block. -/
theorem softResetKeepsAndDiscards : Obligations.SoftResetKeepsAndDiscards := by
  intro s seq args h
  have hexec : exec (.softReset seq args) s = .next (s.opened.softReset.mgmtAnswer seq 0x19 .ok []) := exec_served rfl h
  obtain ⟨x, hx⟩ := s.opened.softReset_eq
  refine ⟨_, hexec, ?_⟩
  have hcport := State.mgmtAnswer_cport (s := s.opened.softReset) (by rw [hx]; simp) seq 0x19 .ok []
  rw [hx, s.opened_image, s.opened_journal, s.opened_gate, s.opened_arbiter, s.opened_ports, s.opened_mgmt,
    s.opened_clock] at hcport ⊢
  refine ⟨rfl, rfl, rfl, rfl, rfl, rfl, fun c => replicate_getElem?_getD 12 c _, rfl,
    fun i => vector_map_getD _ s.gate.cells i GateCell.reset, rfl, rfl, rfl, rfl, rfl, fun q => ?_, rfl,
    fun i => vector_map_getD _ s.image i ImageCell.reset, fun g => replicate_getElem?_getD 48 g _,
    fun n => replicate_getElem?_getD 61 _ _, rfl, rfl, rfl, s.opened_tables, s.opened_contain, s.opened_clock, rfl, rfl,
    s.opened_wakeOnTraffic, rfl, hcport⟩
  show q ∈ s.arbiter.queue.filter _ ↔ _
  rw [List.mem_filter, softRemoved_eq_false_iff]

end Sys2Proof.Machine
end

section
/-! RETAIN_RELEASE hands every retained channel back, and the replays it makes due are kept (R106, R137): O49. -/

namespace Sys2Proof.Machine

/-- What an operation on other channels keeps of channel `j`: its owner, its held order, and a replay that is due,
unprotected, and queued or waiting for room. -/
structure State.Carries (j : Nat) (s t : State) : Prop where
  tables  : t.tables = s.tables
  ctlMask : t.gate.ctlMask = s.gate.ctlMask
  owner   : (t.gateAt j).owner = (s.gateAt j).owner
  held    : ∀ v, (s.gateAt j).held = .held v → (t.gateAt j).held = .held v
  due     : ∀ r v, s.routeAt j = some r → s.gate.ctlMask.getLsbD r.group = false → (s.gateAt j).held = .replayDue v →
              (t.gateAt j).held = .replayDue v ∧ (s.replayWaits j = true → t.replayWaits j = true)

theorem State.Carries.refl (j : Nat) (s : State) : s.Carries j s where
  tables := rfl
  ctlMask := rfl
  owner := rfl
  held _ h := h
  due _ _ _ _ hdue := ⟨hdue, id⟩

theorem State.Carries.trans {j : Nat} {s t u : State} (h : s.Carries j t) (k : t.Carries j u) : s.Carries j u where
  tables := k.tables.trans h.tables
  ctlMask := k.ctlMask.trans h.ctlMask
  owner := k.owner.trans h.owner
  held v hv := k.held v (h.held v hv)
  due r v hr hmask hdue := by
    obtain ⟨hdue', hwaits⟩ := h.due r v hr hmask hdue
    obtain ⟨hdue'', hwaits'⟩ := k.due r v (by rw [State.routeAt, h.tables]; exact hr) (by rw [h.ctlMask]; exact hmask) hdue'
    exact ⟨hdue'', fun hw => hwaits' (hwaits hw)⟩

/-- Operations that leave the channel's gate entry, and every frame and entry that is its replay. -/
theorem State.Carries.of_same {j : Nat} {s t : State} (htables : t.tables = s.tables)
    (hmask : t.gate.ctlMask = s.gate.ctlMask) (howner : (t.gateAt j).owner = (s.gateAt j).owner)
    (hheld : (t.gateAt j).held = (s.gateAt j).held)
    (hqueue : ∀ q ∈ s.arbiter.queue, q.origin = .replay j → q ∈ t.arbiter.queue)
    (hroom : RoomEntry.replay j ∈ s.arbiter.room → RoomEntry.replay j ∈ t.arbiter.room) : s.Carries j t where
  tables := htables
  ctlMask := hmask
  owner := howner
  held v hv := hheld.trans hv
  due r v hr _ hdue := by
    refine ⟨hheld.trans hdue, fun hwaits => (t.replayWaits_iff j).mpr ?_⟩
    rcases (s.replayWaits_iff j).mp hwaits with ⟨q, hq, ho⟩ | h
    · exact .inl ⟨q, hqueue q hq ho, ho⟩
    · exact .inr (hroom h)

theorem State.modGate_carries {i j : Nat} {f : GateCell → GateCell}
    (hf : i = j → ∀ c, (f c).owner = c.owner ∧ (f c).held = c.held) (s : State) : s.Carries j (s.modGate i f) := by
  have hsame : ((s.modGate i f).gateAt j).owner = (s.gateAt j).owner ∧
      ((s.modGate i f).gateAt j).held = (s.gateAt j).held := by
    rw [State.gateAt_modGate]
    split
    next h => exact hf h.1 _
    next => exact ⟨rfl, rfl⟩
  exact .of_same rfl rfl hsame.1 hsame.2 (fun _ h _ => h) id

/-! ### The room list -/

theorem State.appendOrder_arbiter (i : Nat) (v : Half) (o : Origin) (s : State) :
    (s.appendOrder i v o).gate = s.gate ∧ (s.appendOrder i v o).tables = s.tables ∧
      (s.appendOrder i v o).arbiter.room = s.arbiter.room ∧ s.arbiter.queue <+: (s.appendOrder i v o).arbiter.queue := by
  unfold State.appendOrder
  split
  · exact ⟨rfl, rfl, rfl, List.prefix_append ..⟩
  · exact ⟨rfl, rfl, rfl, List.prefix_rfl⟩

theorem State.appendOrder_carries (i j : Nat) (v : Half) (o : Origin) (s : State) :
    s.Carries j (s.appendOrder i v o) := by
  obtain ⟨hgate, htables, hroom, hqueue⟩ := s.appendOrder_arbiter i v o
  have hcell : (s.appendOrder i v o).gateAt j = s.gateAt j := by
    rw [State.gateAt, hgate, State.gateAt]
  exact .of_same htables (by rw [hgate]) (by rw [hcell]) (by rw [hcell]) (fun q hq _ => hqueue.subset hq)
    (by rw [hroom]; exact id)

theorem State.decideReplay_carries (i j : Nat) (s : State) : s.Carries j (s.decideReplay i) := by
  unfold State.decideReplay
  split
  next v r hv hr =>
    split
    next hmask =>
      by_cases hij : i = j
      · subst hij
        exact {
          tables := rfl
          ctlMask := rfl
          owner := by rw [State.gateAt_modGate]; split <;> rfl
          held := fun w hw => by rw [hv] at hw; cases hw
          due := fun r' w hr' hfree _ => by
            rw [hr] at hr'
            cases hr'
            rw [State.ctlProtected, hfree] at hmask
            cases hmask }
      · exact s.modGate_carries fun h => absurd h hij
    next => exact s.appendOrder_carries ..
  next => exact .refl j s

theorem State.roomBecomesAck_carries (j d : Nat) (s : State) : s.Carries j (s.roomBecomesAck d) :=
  .of_same rfl rfl rfl rfl (fun _ h _ => h) id

theorem State.appendHandBack_carries (i j : Nat) (s : State) : s.Carries j (s.appendHandBack i) := by
  unfold State.appendHandBack
  split
  next v _ =>
    exact (s.appendOrder_carries i j v (.handBack i)).trans
      (State.modGate_carries (f := fun c => { c with handBack := none }) (fun _ _ => ⟨rfl, rfl⟩) _)
  next => exact .refl j s

theorem State.appendRoomEntry_carries (e : RoomEntry) (j : Nat) (s : State) : s.Carries j (s.appendRoomEntry e) := by
  cases e with
  | plan d st i v =>
    exact (s.appendOrder_carries i j v (.plan d st i)).trans
      ((s.appendOrder i v (.plan d st i)).roomBecomesAck_carries j d)
  | replay i => exact s.decideReplay_carries i j
  | handBack i => exact s.appendHandBack_carries i j

theorem State.appendRoomEntry_queue (e : RoomEntry) (s : State) :
    s.arbiter.queue <+: (s.appendRoomEntry e).arbiter.queue := by
  cases e with
  | plan d st i v => exact (s.appendOrder_arbiter i v (.plan d st i)).2.2.2
  | replay i =>
    show s.arbiter.queue <+: (s.decideReplay i).arbiter.queue
    unfold State.decideReplay
    split
    · split
      · exact List.prefix_rfl
      · exact (s.appendOrder_arbiter ..).2.2.2
    · exact List.prefix_rfl
  | handBack i =>
    show s.arbiter.queue <+: (s.appendHandBack i).arbiter.queue
    unfold State.appendHandBack
    split
    next v _ => exact (s.appendOrder_arbiter i v (.handBack i)).2.2.2
    next => exact List.prefix_rfl

/-- An unprotected replay that is due is appended to the queue. -/
theorem State.decideReplay_due {j : Nat} {s : State} {r : RouteEntry} {v : Half} (hr : s.routeAt j = some r)
    (hfree : s.gate.ctlMask.getLsbD r.group = false) (hdue : (s.gateAt j).held = .replayDue v) :
    ∃ q ∈ (s.decideReplay j).arbiter.queue, q.origin = .replay j := by
  have happend : s.decideReplay j = s.orderAtTail r (s.clamped j r (s.inhibited r v)) (.replay j) := by
    rw [State.decideReplay, hdue, hr]
    dsimp only
    rw [State.ctlProtected, hfree, if_neg Bool.false_ne_true, State.appendOrder_eq hr]
  rw [happend]
  exact ⟨_, List.mem_append_right _ (List.mem_singleton_self _), rfl⟩

/-- One entry of the room list is taken to the queue. -/
theorem takeEntry_carries (j : Nat) (e : RoomEntry) (es : List RoomEntry) (s : State) :
    (s.setRoom (e :: es)).Carries j ((s.appendRoomEntry e).setRoom es) := by
  have hstep := s.appendRoomEntry_carries e j
  exact {
    tables := hstep.tables
    ctlMask := hstep.ctlMask
    owner := hstep.owner
    held := hstep.held
    due := fun r v hr hfree hdue => by
      refine ⟨(hstep.due r v hr hfree hdue).1, fun hwaits => (State.replayWaits_iff _ j).mpr ?_⟩
      rcases (State.replayWaits_iff _ j).mp hwaits with ⟨q, hq, ho⟩ | hroom
      · exact .inl ⟨q, (s.appendRoomEntry_queue e).subset hq, ho⟩
      · rcases List.mem_cons.mp hroom with rfl | hroom
        · exact .inl (State.decideReplay_due hr hfree hdue)
        · exact .inr hroom }

/-- The room list fills the places: the replay of the channel moves to the queue or waits on. -/
theorem fillFrom_carries (j : Nat) (es : List RoomEntry) (s : State) : (s.setRoom es).Carries j (fillFrom es s) := by
  induction es generalizing s with
  | nil => exact .refl j _
  | cons e es ih =>
    unfold fillFrom
    split
    · exact (takeEntry_carries j e es s).trans (ih (s.appendRoomEntry e))
    · exact .refl j _

theorem State.fillRoom_carries (j : Nat) (s : State) : s.Carries j s.fillRoom := fillFrom_carries j s.arbiter.room s

/-! ### Ownership -/

theorem State.dropHandBack_carries (i j : Nat) (s : State) : s.Carries j (s.dropHandBack i) := by
  unfold State.dropHandBack
  have hcell : s.Carries j (s.modGate i fun c => { c with handBack := none }) :=
    State.modGate_carries (f := fun c => { c with handBack := none }) (fun _ _ => ⟨rfl, rfl⟩) s
  refine hcell.trans ?_
  generalize s.modGate i (fun c => { c with handBack := none }) = u
  have hleft : u.Carries j ((u.removeRoom fun e => e = .handBack i).setQueue
      (u.arbiter.queue.filter fun q => !decide (q.origin = .handBack i))) :=
    .of_same rfl rfl rfl rfl (fun q hq ho => List.mem_filter.mpr ⟨hq, by rw [ho]; rfl⟩)
      fun h => List.mem_filter.mpr ⟨h, rfl⟩
  exact hleft.trans (State.fillRoom_carries j _)

/-- The channel's own change of owner keeps its held order. -/
theorem State.setOwner_released {i : Nat} {s : State} (hi : i < 64) (o : Owner) :
    ((s.setOwner i o).gateAt i).owner = o ∧
      ∀ v, (s.gateAt i).held = .held v → ((s.setOwner i o).gateAt i).held = .held v := by
  unfold State.setOwner
  split
  next h => exact ⟨h, fun _ => id⟩
  next =>
    have hcell : (s.modGate i fun c => { c with owner := o }).gateAt i = { s.gateAt i with owner := o } := by
      rw [State.gateAt_modGate, if_pos ⟨rfl, hi⟩]
    have hdrop := (s.modGate i fun c => { c with owner := o }).dropHandBack_carries i i
    exact ⟨by rw [hdrop.owner, hcell], fun v hv => hdrop.held v (by rw [hcell]; exact hv)⟩

theorem State.setOwner_carries {i j : Nat} (h : i ≠ j) (o : Owner) (s : State) : s.Carries j (s.setOwner i o) := by
  unfold State.setOwner
  split
  · exact .refl j s
  · have hcell : s.Carries j (s.modGate i fun c => { c with owner := o }) := s.modGate_carries fun k => absurd k h
    exact hcell.trans (State.dropHandBack_carries i j _)

theorem State.prepareReplay_carries (i j : Nat) (s : State) : s.Carries j (s.prepareReplay i) := by
  unfold State.prepareReplay
  split
  · exact s.decideReplay_carries i j
  · exact .of_same rfl rfl rfl rfl (fun _ h _ => h) (List.mem_append_left _)

/-- A replay that is prepared stands in the queue or waits for room. -/
theorem State.prepareReplay_waits {i : Nat} {s : State} {r : RouteEntry} {v : Half} (hr : s.routeAt i = some r)
    (hfree : s.gate.ctlMask.getLsbD r.group = false) (hdue : (s.gateAt i).held = .replayDue v) :
    (s.prepareReplay i).replayWaits i = true := by
  rw [State.replayWaits_iff]
  unfold State.prepareReplay
  split
  · exact .inl (State.decideReplay_due hr hfree hdue)
  · exact .inr (List.mem_append_right _ (List.mem_singleton_self _))

theorem State.toController_carries {i j : Nat} (h : i ≠ j) (s : State) : s.Carries j (s.toController i) := by
  have howner := s.setOwner_carries h .controller
  unfold State.toController
  dsimp only
  generalize s.setOwner i .controller = u at howner ⊢
  split
  next v _ =>
    have hcell : u.Carries j (u.modGate i fun c => { c with held := .replayDue v }) :=
      u.modGate_carries fun k => absurd k h
    exact howner.trans (hcell.trans (State.prepareReplay_carries i j _))
  next => exact howner

/-- A channel that returns to CONTROLLER: its held order, if its group is unprotected, is due for a replay that stands in
the queue or waits. -/
def State.Released (i : Nat) (s t : State) : Prop :=
  (t.gateAt i).owner = .controller ∧
    ∀ r v, s.routeAt i = some r → s.gate.ctlMask.getLsbD r.group = false → (s.gateAt i).held = .held v →
      (t.gateAt i).held = .replayDue v ∧ t.replayWaits i = true

theorem State.toController_released {i : Nat} (hi : i < 64) (s : State) : s.Released i (s.toController i) := by
  obtain ⟨howner, hheld⟩ := s.setOwner_released hi .controller
  have hframe := (State.GateFrame.refl s).setOwner i .controller
  unfold State.toController
  dsimp only
  generalize s.setOwner i .controller = u at howner hheld hframe ⊢
  split
  next w hw =>
    have hcell : (u.modGate i fun c => { c with held := .replayDue w }).gateAt i =
        { u.gateAt i with held := .replayDue w } := by
      rw [State.gateAt_modGate, if_pos ⟨rfl, hi⟩]
    have hprepare := (u.modGate i fun c => { c with held := .replayDue w }).prepareReplay_carries i i
    refine ⟨by rw [hprepare.owner, hcell]; exact howner, fun r v hr hfree hv => ?_⟩
    obtain rfl : v = w := HeldSlot.held.inj ((hheld v hv).symm.trans hw)
    have hr' : u.routeAt i = some r := by rw [State.routeAt, hframe.tables]; exact hr
    have hfree' : u.gate.ctlMask.getLsbD r.group = false := by rw [hframe.ctlMask]; exact hfree
    have hdue : ((u.modGate i fun c => { c with held := .replayDue v }).gateAt i).held = .replayDue v := by rw [hcell]
    exact ⟨(hprepare.due r v hr' hfree' hdue).1, State.prepareReplay_waits hr' hfree' hdue⟩
  next hnot => exact ⟨howner, fun r v _ _ hv => absurd (hheld v hv) (hnot v)⟩

theorem State.Carries.released {i : Nat} {s t u : State} (h : s.Carries i t) (k : t.Released i u) : s.Released i u :=
  ⟨k.1, fun r v hr hfree hv => k.2 r v (by rw [State.routeAt, h.tables]; exact hr) (by rw [h.ctlMask]; exact hfree)
    (h.held v hv)⟩

theorem State.Released.carried {i : Nat} {s t u : State} (h : s.Released i t) (hframe : s.GateFrame t)
    (k : t.Carries i u) : s.Released i u := by
  refine ⟨k.owner.trans h.1, fun r v hr hfree hv => ?_⟩
  obtain ⟨hdue, hwaits⟩ := h.2 r v hr hfree hv
  obtain ⟨hdue', hwaits'⟩ := k.due r v (by rw [State.routeAt, hframe.tables]; exact hr)
    (by rw [hframe.ctlMask]; exact hfree) hdue
  exact ⟨hdue', hwaits' hwaits⟩

/-- Handing back one channel after another: each is released, and the others are left. -/
theorem releaseAll (is : List Nat) (hdistinct : is.Nodup) (s : State) :
    (∀ j, j ∉ is → s.Carries j (is.foldl (fun u i => u.toController i) s)) ∧
      ∀ j ∈ is, j < 64 → s.Released j (is.foldl (fun u i => u.toController i) s) := by
  induction is generalizing s with
  | nil => exact ⟨fun j _ => .refl j s, fun j h => absurd h List.not_mem_nil⟩
  | cons i is ih =>
    obtain ⟨hi, hrest⟩ := List.nodup_cons.mp hdistinct
    obtain ⟨hothers, hthese⟩ := ih hrest (s.toController i)
    refine ⟨fun j hj => ?_, fun j hj hlt => ?_⟩
    · obtain ⟨hne, hnot⟩ := not_or.mp fun h => hj (List.mem_cons.mpr h)
      exact (s.toController_carries (Ne.symm hne)).trans (hothers j hnot)
    · rcases List.mem_cons.mp hj with rfl | hmem
      · exact (s.toController_released hlt).carried ((State.GateFrame.refl s).toController j) (hothers j hi)
      · exact (s.toController_carries fun h : i = j => hi (by rw [h]; exact hmem)).released (hthese j hmem hlt)

theorem State.routeAt_lt {s : State} {i : Nat} {r : RouteEntry} (h : s.routeAt i = some r) : i < 64 := by
  by_contra hout
  rw [State.routeAt, Vector.getElem?_eq_none (by omega)] at h
  cases h

/-- Settles O49: the retained channels, one after another. -/
theorem retainReleaseFreesEveryChannel : Obligations.RetainReleaseFreesEveryChannel := by
  intro s seq args h
  have hexec : exec (.retainRelease seq args) s = .next (s.opened.releaseRetained.mgmtAnswer seq 0x17 .ok []) :=
    exec_served rfl h
  obtain ⟨hothers, hthese⟩ := releaseAll (s.opened.ownedBy .retained) (List.nodup_range.filter _) s.opened
  have howned (i : Nat) : i ∈ s.opened.ownedBy .retained ↔ i < 64 ∧ (s.gateAt i).owner = .retained := by
    simp [State.ownedBy, Config.routes]
  have hforced : ∀ i, (s.opened.releaseRetained.gateAt i).forceOffDue = (s.gateAt i).forceOffDue ∧
      (s.opened.releaseRetained.gateAt i).deferred = (s.gateAt i).deferred := by
    intro i
    have hframe : s.opened.ExecutorFrame s.opened.releaseRetained :=
      (State.ExecutorFrame.refl _).foldl _ _ fun u j k => k.gate ((State.GateFrame.refl u).toController j)
    rw [← s.opened_gateAt i]
    exact hframe.forced i
  refine ⟨_, hexec, rfl, fun i hi hret => (hthese i ((howned i).mpr ⟨hi, hret⟩) hi).1, fun i hnot => ?_, hforced,
    fun i r v hr hret hheld hfree => ?_, _, rfl, rfl, rfl⟩
  · have hcarried := hothers i fun k => hnot ((howned i).mp k).2
    exact hcarried.owner.trans (congrArg GateCell.owner (s.opened_gateAt i))
  · have hi := State.routeAt_lt hr
    have hreleased := (hthese i ((howned i).mpr ⟨hi, hret⟩) hi).2 r v ((s.opened_routeAt i).trans hr)
      (by rw [s.opened_gate]; exact hfree) (by rw [s.opened_gateAt]; exact hheld)
    exact ⟨hreleased.1, (State.replayWaits_iff _ i).mp hreleased.2⟩

end Sys2Proof.Machine
end

section
/-! TABLE_WRITE: its refusals, the commits and the staging buffer (R159, R160): O44 and O45. -/

namespace Sys2Proof.Machine

/-! ### The request -/

section
variable {s : State} {tb idx : Byte} {data : List Byte}

theorem State.serveTableWrite_eq (seq : Byte) (s : State) : s.serveTableWrite seq (tb :: idx :: data) =
    (s.writeTable tb idx data).2.mgmtAnswer seq 0x10 (s.writeTable tb idx data).1 [] := rfl

theorem exec_tableWrite (h : s.Reaches .tableWrite (tb :: idx :: data)) (seq : Byte) {res : Result} {u : State}
    (hwrite : s.opened.writeTable tb idx data = (res, u)) :
    exec (.tableWrite seq (tb :: idx :: data)) s = .next (u.mgmtAnswer seq 0x10 res []) := by
  refine (exec_served rfl h).trans (congrArg Host.Outcome.next ?_)
  refine (State.serveTableWrite_eq seq s.opened).trans ?_
  rw [hwrite]

theorem exec_tableWriteFirst (h : s.Reaches .tableWrite (tb :: idx :: data)) (seq : Byte) {res : Result} {u : State}
    (hwrite : s.opened.writeTable tb idx data = (res, u)) :
    exec (.tableWriteFirst seq (tb :: idx :: data)) s = .next (u.mgmtAnswer seq 0x10 res []) := by
  refine (exec_served rfl h).trans (congrArg Host.Outcome.next ?_)
  refine (State.serveTableWrite_eq seq s.opened).trans ?_
  rw [hwrite]

theorem exec_tableWriteLast (h : s.Reaches .tableWrite (tb :: idx :: data)) (seq : Byte) {res : Result} {u : State}
    (hwrite : s.opened.writeTable tb idx data = (res, u)) :
    exec (.tableWriteLast seq (tb :: idx :: data)) s = .next (u.mgmtAnswer seq 0x10 res []) := by
  refine (exec_served rfl h).trans (congrArg Host.Outcome.next ?_)
  refine (State.serveTableWrite_eq seq s.opened).trans ?_
  rw [hwrite]

/-! ### The refusals of R159, in their order -/

variable {t : TableId}

theorem State.writeTable_noTable (hcode : TableId.ofCode (tableNibble tb) = none) :
    s.writeTable tb idx data = (.badIndex, s) := by
  rw [State.writeTable, hcode]

variable (hcode : TableId.ofCode (tableNibble tb) = some t)
include hcode

theorem State.writeTable_notLive (hlive : s.notLive t = true) : s.writeTable tb idx data = (.notLive, s) := by
  simp only [State.writeTable, hcode, hlive, if_true]

variable (hlive : s.notLive t = false)
include hlive

theorem State.writeTable_outside (hindex : t.indexOk idx.toNat data.head? = false) :
    s.writeTable tb idx data = (.badIndex, s) := by
  simp only [State.writeTable, hcode, hlive, hindex, Bool.false_eq_true, if_false, Bool.not_false, if_true]

variable (hindex : t.indexOk idx.toNat data.head? = true)
include hindex

theorem State.writeTable_noPart (hpart : partOk t tb data = false) : s.writeTable tb idx data = (.badValue, s) := by
  simp only [State.writeTable, hcode, hlive, hindex, hpart, Bool.false_eq_true, if_false, Bool.not_false, Bool.not_true,
    if_true]

theorem State.writeTable_part (hpart : partOk t tb data = true) :
    s.writeTable tb idx data = s.writePart t (tablePart tb) idx.toNat data := by
  simp only [State.writeTable, hcode, hlive, hindex, hpart, Bool.false_eq_true, if_false, Bool.not_true]

end

theorem State.opened_notLive (s : State) (t : TableId) : s.opened.notLive t = s.notLive t := by
  rw [State.notLive, s.opened_engine, State.notLive]

theorem State.notLive_iff (s : State) (t : TableId) : s.notLive t = true ↔
    s.mgmt.engine = .watch ∨ (s.mgmt.engine = .armed ∧ t.isLive = false) := by
  show s.notLive t = true ↔ s.engine = .watch ∨ (s.engine = .armed ∧ t.isLive = false)
  simp [State.notLive]

theorem State.notLive_of_config {s : State} (h : s.mgmt.engine = .config) (t : TableId) : s.notLive t = false := by
  rw [← Bool.not_eq_true, s.notLive_iff, h]
  simp

theorem State.notLive_of_live {s : State} {t : TableId} (h : s.mgmt.engine = .config ∨ s.mgmt.engine = .armed)
    (hlive : t.isLive = true) : s.notLive t = false := by
  rw [← Bool.not_eq_true, s.notLive_iff, hlive]
  rcases h with h | h <;> simp [h]

theorem partOk_of_length {t : TableId} {tb : Byte} {data : List Byte} (hbits : (!tableBit3 tb && !tableRun tb) = true)
    (hlen : partLength t (tablePart tb) = some data.length) : partOk t tb data = true := by
  rw [partOk, hbits, hlen]
  simp

/-- A single part that passes the refusals is validated and committed. -/
theorem State.writeTable_single {s : State} {tb idx : Byte} {data : List Byte} {t : TableId}
    (hcode : TableId.ofCode (tableNibble tb) = some t) (hlive : s.notLive t = false)
    (hindex : t.indexOk idx.toNat data.head? = true) (hbits : (!tableBit3 tb && !tableRun tb) = true)
    (hsingle : tablePart tb = 0) (hlen : partLength t 0 = some data.length) :
    s.writeTable tb idx data = s.writeSingle t idx.toNat data := by
  rw [State.writeTable_part hcode hlive hindex (partOk_of_length hbits (by rw [hsingle]; exact hlen)), hsingle]
  rfl

theorem commitOr_some {α : Type} {entry : Option α} {e : α} (h : entry = some e) (commit : α → State → State) (s : State) :
    commitOr entry commit s = (.ok, commit e s) := by
  rw [h]
  rfl

theorem commitOr_none {α : Type} {entry : Option α} (h : entry = none) (commit : α → State → State) (s : State) :
    commitOr entry commit s = (.badValue, s) := by
  rw [h]
  rfl

/-! ### ROUTE and CLASS -/

theorem State.pairTaken_iff (s : State) (i : Nat) (r : RouteEntry) : s.pairTaken i r = true ↔
    ∃ j e, j ≠ i ∧ s.routeAt j = some e ∧ e.node = r.node ∧ e.chan = r.chan := by
  simp only [State.pairTaken, List.any_eq_true, List.mem_range, Bool.and_eq_true, decide_eq_true_eq]
  constructor
  · rintro ⟨j, _, hne, hmatch⟩
    split at hmatch
    next e he =>
      obtain ⟨hnode, hchan⟩ := (Bool.and_eq_true _ _).mp hmatch
      exact ⟨j, e, by simpa using hne, he, of_decide_eq_true hnode, of_decide_eq_true hchan⟩
    next => cases hmatch
  · rintro ⟨j, e, hne, he, hnode, hchan⟩
    refine ⟨j, State.routeAt_lt he, by simpa using hne, ?_⟩
    rw [he]
    simp [hnode, hchan]

theorem State.opened_pairTaken (s : State) (i : Nat) (r : RouteEntry) : s.opened.pairTaken i r = s.pairTaken i r := by
  rw [Bool.eq_iff_iff, State.pairTaken_iff, State.pairTaken_iff]
  simp only [State.opened_routeAt]

theorem State.commitClass_eq (s : State) (c : Nat) (e : ClassEntry) (hc : c < 12) :
    s.commitClass c e =
      let u := s.setTables { s.tables with cls := s.tables.cls.setIfInBounds c e }
      if (s.classAt c).enable = false ∧ e.enable = true ∧ (s.latchAt c).state = .pending then
        match (s.latchAt c).firstCause with
        | some cause => (u.notifyLatched c cause s.now).runEvaluate
        | none => u.runEvaluate
      else u := by
  have hclass : (s.setTables { s.tables with cls := s.tables.cls.setIfInBounds c e }).classAt c = e := by
    rw [State.classAt]
    show ((s.tables.cls.setIfInBounds c e)[c]?).getD _ = e
    rw [Vector.getElem?_setIfInBounds_self_of_lt hc]
    rfl
  have hlatch : (s.setTables { s.tables with cls := s.tables.cls.setIfInBounds c e }).latchAt c = s.latchAt c := rfl
  rw [State.commitClass, State.classCommitted, hclass, hlatch]
  refine if_congr ?_ ?_ rfl
  · simp [and_assoc]
  · cases (s.latchAt c).firstCause <;> rfl

/-! ### The rows of R159 -/

theorem tableNibble_eq (tb : Byte) : tableNibble tb = tb.toNat / 16 := by
  rw [tableNibble, BitVec.toNat_ushiftRight, Nat.shiftRight_eq_div_pow]

theorem tablePart_eq : ∀ tb : Byte, tablePart tb = tb.toNat % 4 := by
  unfold Byte
  decide

theorem low_of_bits : ∀ tb : Byte, (!tableBit3 tb && !tableRun tb) = true → tb.toNat % 16 < 4 := by
  unfold Byte
  decide

theorem TableId.indexOk_iff (t : TableId) (i : Nat) (step : Option Byte) : t.indexOk i step = true ↔
    i < t.size ∧ (t = .plan → ∀ st, step = some st → st.toNat < 12) := by
  cases t with
  | plan => cases step <;> simp [TableId.indexOk, Config.steps]
  | line | route | zone | curve | signature | cls | select => simp [TableId.indexOk]

/-- The rows of R159: number, size, the parts with their lengths. -/
def tableRows : List (Nat × Nat × List (Nat × Nat)) :=
  [(1, 1, [(0, 12)]), (2, 64, [(0, 9)]), (3, 8, [(1, 13), (2, 12)]), (4, 8, [(0, 13), (1, 13), (2, 12)]),
    (5, 48, [(0, 13)]), (6, 12, [(0, 1)]), (7, 12, [(0, 6)]), (8, 24, [(0, 8)])]

/-- The table of a row. -/
structure RowOf (n size : Nat) (parts : List (Nat × Nat)) (t : TableId) : Prop where
  code  : TableId.ofCode n = some t
  size  : t.size = size
  live  : t.isLive = true ↔ n = 4 ∨ n = 6
  plan  : t = .plan ↔ n = 8
  parts : ∀ p len, partLength t p = some len → (p, len) ∈ parts

theorem partLength_single {t : TableId} {len : Nat} (h : ∀ p, partLength t p = if p = 0 then some len else none) :
    ∀ p l, partLength t p = some l → (p, l) ∈ [(0, len)] := by
  intro p l hl
  rw [h p] at hl
  split at hl
  next hp => cases hl; simp [hp]
  next => cases hl

theorem row_table {n size : Nat} {parts : List (Nat × Nat)} (h : (n, size, parts) ∈ tableRows) :
    ∃ t, RowOf n size parts t := by
  simp only [tableRows, List.mem_cons, List.not_mem_nil, or_false, Prod.mk.injEq] at h
  obtain ⟨rfl, rfl, rfl⟩ | ⟨rfl, rfl, rfl⟩ | ⟨rfl, rfl, rfl⟩ | ⟨rfl, rfl, rfl⟩ | ⟨rfl, rfl, rfl⟩ | ⟨rfl, rfl, rfl⟩ |
    ⟨rfl, rfl, rfl⟩ | ⟨rfl, rfl, rfl⟩ := h
  · exact ⟨.line, rfl, rfl, by decide, by decide, partLength_single fun p => by cases p <;> rfl⟩
  · exact ⟨.route, rfl, rfl, by decide, by decide, partLength_single fun p => by cases p <;> rfl⟩
  · refine ⟨.zone, rfl, rfl, by decide, by decide, fun p len hp => ?_⟩
    match p with
    | 0 => cases hp
    | 1 => cases hp; decide
    | 2 => cases hp; decide
    | p + 3 => cases hp
  · refine ⟨.curve, rfl, rfl, by decide, by decide, fun p len hp => ?_⟩
    match p with
    | 0 => cases hp; decide
    | 1 => cases hp; decide
    | 2 => cases hp; decide
    | p + 3 => cases hp
  · exact ⟨.signature, rfl, rfl, by decide, by decide, partLength_single fun p => by cases p <;> rfl⟩
  · exact ⟨.cls, rfl, rfl, by decide, by decide, partLength_single fun p => by cases p <;> rfl⟩
  · exact ⟨.select, rfl, rfl, by decide, by decide, partLength_single fun p => by cases p <;> rfl⟩
  · exact ⟨.plan, rfl, rfl, by decide, by decide, partLength_single fun p => by cases p <;> rfl⟩

theorem head?_eq_some_iff_cons {data : List Byte} {st : Byte} : data.head? = some st ↔ ∃ rest, data = st :: rest := by
  cases data <;> simp

section
variable {s : State} {tb idx : Byte} {data : List Byte}

/-- The refusals that TABLE_WRITE tests in order, for the row of its table. -/
theorem State.writeTable_refusals {n size : Nat} {parts : List (Nat × Nat)} (hrow : (n, size, parts) ∈ tableRows)
    (hn : tb.toNat / 16 = n) :
    let live := s.mgmt.engine = .config ∨ (s.mgmt.engine = .armed ∧ (n = 4 ∨ n = 6))
    let outside := size ≤ idx.toNat ∨ (n = 8 ∧ ∃ st rest, data = st :: rest ∧ 12 ≤ st.toNat)
    (s.mgmt.engine = .watch ∨ (s.mgmt.engine = .armed ∧ n ≠ 4 ∧ n ≠ 6) → s.writeTable tb idx data = (.notLive, s)) ∧
      (live → outside → s.writeTable tb idx data = (.badIndex, s)) ∧
      (live → ¬ outside → 4 ≤ tb.toNat % 16 ∨ (tb.toNat % 4, data.length) ∉ parts →
        s.writeTable tb idx data = (.badValue, s)) := by
  obtain ⟨t, row⟩ := row_table hrow
  have hcode : TableId.ofCode (tableNibble tb) = some t := by rw [tableNibble_eq, hn, row.code]
  have hnotLive : (s.mgmt.engine = .config ∨ (s.mgmt.engine = .armed ∧ (n = 4 ∨ n = 6))) → s.notLive t = false := by
    rintro (h | ⟨h, hlive⟩)
    · exact State.notLive_of_config h t
    · exact State.notLive_of_live (.inr h) (row.live.mpr hlive)
  have hindex : t.indexOk idx.toNat data.head? = true ↔
      ¬ (size ≤ idx.toNat ∨ (n = 8 ∧ ∃ st rest, data = st :: rest ∧ 12 ≤ st.toNat)) := by
    rw [TableId.indexOk_iff, row.size, row.plan, not_or, Nat.not_le]
    refine and_congr_right fun _ => ?_
    rw [not_and]
    refine imp_congr_right fun _ => ?_
    simp only [head?_eq_some_iff_cons]
    constructor
    · rintro h ⟨st, rest, hdata, hst⟩
      exact absurd (h st ⟨rest, hdata⟩) (Nat.not_lt.mpr hst)
    · rintro h st ⟨rest, hdata⟩
      exact Nat.not_le.mp fun hst => h ⟨st, rest, hdata, hst⟩
  refine ⟨fun h => State.writeTable_notLive hcode ((s.notLive_iff t).mpr ?_), fun hlive hout => ?_,
    fun hlive hin hbad => ?_⟩
  · refine h.imp_right fun ⟨harmed, h4, h6⟩ => ⟨harmed, ?_⟩
    rw [← Bool.not_eq_true, row.live]
    exact fun k => k.elim h4 h6
  · refine State.writeTable_outside hcode (hnotLive hlive) ?_
    rw [← Bool.not_eq_true, hindex]
    exact not_not.mpr hout
  · refine State.writeTable_noPart hcode (hnotLive hlive) (hindex.mpr hin) ?_
    rw [← Bool.not_eq_true, partOk, Bool.and_eq_true, decide_eq_true_eq]
    rintro ⟨hbits, hlen⟩
    rcases hbad with h | h
    · exact absurd (low_of_bits tb hbits) (Nat.not_lt.mpr h)
    · exact h (row.parts _ _ (tablePart_eq tb ▸ hlen))

end

end Sys2Proof.Machine
end

section
/-! The commits of a SINGLE part and the staging of a two-part entry (R159, R160): O44 and O45. -/

namespace Sys2Proof.Machine

section
variable {s : State} {tb idx : Byte} {data : List Byte} {t : TableId}

/-- A single part of a table other than PLAN. -/
theorem State.writeTable_singleOf (hcode : TableId.ofCode (tableNibble tb) = some t) (hplan : t ≠ .plan)
    (hbits : (!tableBit3 tb && !tableRun tb) = true) (hsingle : tablePart tb = 0) (hlive : s.notLive t = false)
    (hidx : idx.toNat < t.size) (hlen : partLength t 0 = some data.length) :
    s.opened.writeTable tb idx data = s.opened.writeSingle t idx.toNat data :=
  State.writeTable_single hcode ((s.opened_notLive t).trans hlive)
    ((TableId.indexOk_iff ..).mpr ⟨hidx, fun h => absurd h hplan⟩) hbits hsingle hlen

/-- What a commit of a parsed entry answers. -/
theorem State.committed_or_refused {α : Type} {entry : Option α} {commit : α → State → State}
    (hwrite : s.opened.writeTable tb idx data = commitOr entry commit s.opened)
    (h : s.Reaches .tableWrite (tb :: idx :: data)) (seq : Byte) :
    (∀ e, entry = some e → exec (.tableWrite seq (tb :: idx :: data)) s =
      .next ((commit e s.opened).mgmtAnswer seq 0x10 .ok [])) ∧
    (entry = none → exec (.tableWrite seq (tb :: idx :: data)) s =
      .next (s.opened.mgmtAnswer seq 0x10 .badValue [])) :=
  ⟨fun _ he => exec_tableWrite h seq (hwrite.trans (commitOr_some he ..)),
    fun he => exec_tableWrite h seq (hwrite.trans (commitOr_none he ..))⟩

end

theorem State.opened_commitLine (s : State) (l : LineRecord) :
    s.opened.commitLine l = s.opened.setTables { s.tables with line := some l } := by
  rw [State.commitLine, s.opened_tables]

theorem State.opened_commitCurve (s : State) (i : Nat) (c : CurveEntry) :
    s.opened.commitCurve i c = s.opened.setTables { s.tables with curve := s.tables.curve.setIfInBounds i (some c) } := by
  rw [State.commitCurve, s.opened_tables]

theorem State.opened_commitSignature (s : State) (i : Nat) (e : SigEntry) : s.opened.commitSignature i e =
    (s.opened.setTables { s.tables with signature := s.tables.signature.setIfInBounds i (some e) }).setRun i
      SigRun.reset := by
  rw [State.commitSignature, s.opened_tables]

theorem State.opened_commitSelect (s : State) (c : Nat) (r : SelectRow) :
    s.opened.commitSelect c r = s.opened.setTables { s.tables with select := s.tables.select.setIfInBounds c (some r) } := by
  rw [State.commitSelect, s.opened_tables]

theorem State.opened_commitSlot (s : State) (plan step : Nat) (p : PlanSlot) : s.opened.commitSlot plan step p =
    s.opened.setTables { s.tables with plan := s.tables.plan.setIfInBounds (12 * plan + step) (some p) } := by
  rw [State.commitSlot, s.opened_tables]

theorem State.opened_commitRoute (s : State) (i : Nat) (r : RouteEntry) : s.opened.commitRoute i r =
    ((s.opened.setTables { s.tables with route := s.tables.route.setIfInBounds i (some r) }).modImage i fun c =>
      { ImageCell.reset with keepPending := c.keepPending }).modGate i fun _ => GateCell.reset := by
  rw [State.commitRoute, s.opened_tables]

/-- The CLASS commit that hands a PENDING latch to the executor, and every other one (R77). -/
theorem State.opened_commitClass (s : State) {c : Nat} (hc : c < 12) (e : ClassEntry) :
    let u := s.opened.setTables { s.tables with cls := s.tables.cls.setIfInBounds c e }
    (e.enable = false ∨ (s.classAt c).enable = true ∨ (s.latchAt c).state ≠ .pending → s.opened.commitClass c e = u) ∧
      ∀ cause, e.enable = true → (s.classAt c).enable = false → (s.latchAt c).state = .pending →
        (s.latchAt c).firstCause = some cause →
        s.opened.commitClass c e = (u.setNotices (pushNotice s.notices
          { kind := .faultLatched, time := s.time.clock, a := word c, b := optHalf cause.zone,
            c := word cause.source.code, overflowed := false })).runEvaluate := by
  have hcommit := s.opened.commitClass_eq c e hc
  dsimp only at hcommit ⊢
  rw [s.opened_classAt, s.opened_latchAt, s.opened_tables] at hcommit
  refine ⟨fun h => ?_, fun cause hon hoff hpending hcause => ?_⟩
  · rw [hcommit, if_neg]
    rintro ⟨hoff, hon, hpending⟩
    rcases h with h | h | h
    · rw [h] at hon; cases hon
    · rw [h] at hoff; cases hoff
    · exact h hpending
  · rw [hcommit, if_pos ⟨hoff, hon, hpending⟩, hcause]
    dsimp only
    rw [State.notifyLatched, State.notifyAt, ← s.opened_notices, s.opened_now]
    rfl

theorem TableId.ofCode_eq_none {n : Nat} (h : n = 0 ∨ 9 ≤ n) : TableId.ofCode n = none := by
  rcases h with rfl | h
  · rfl
  · obtain ⟨k, rfl⟩ := Nat.exists_eq_add_of_le' h
    rfl

/-- Settles O44: the commits table by table, then the refusals by row. -/
theorem singlePartsAreCommitted : Obligations.SinglePartsAreCommitted := by
  intro s seq idx data write o
  refine ⟨fun h hconfig hidx hlen => ?_, fun h hconfig hidx hlen => ?_, fun h hmode hidx hlen => ?_,
    fun h hconfig hidx hlen => ?_, fun cb e hdata h hmode hidx he => ?_, fun h hconfig hidx hlen => ?_,
    fun st rest hdata h hconfig hidx hst hlen => ?_, fun tb h => ⟨fun hn => ?_, fun n size parts hrow hn => ?_⟩⟩
  · have hwrite := State.writeTable_singleOf (s := s) (tb := 0x10) (idx := idx) (data := data) (t := .line) (by decide)
      (by decide) (by decide) (by decide) (State.notLive_of_config hconfig _) (by rw [hidx]; decide) (by rw [hlen]; rfl)
    obtain ⟨hok, hbad⟩ := State.committed_or_refused hwrite h seq
    exact ⟨fun l hl => (hok l hl).trans (by rw [s.opened_commitLine]), hbad⟩
  · have hwrite := State.writeTable_singleOf (s := s) (tb := 0x20) (idx := idx) (data := data) (t := .route) (by decide)
      (by decide) (by decide) (by decide) (State.notLive_of_config hconfig _) hidx (by rw [hlen]; rfl)
    refine ⟨fun hnone => exec_tableWrite h seq (hwrite.trans ?_), fun r hr => ⟨fun j e hj he hpair =>
      exec_tableWrite h seq (hwrite.trans ?_), fun hfree => exec_tableWrite h seq (hwrite.trans ?_)⟩⟩
    · rw [State.writeSingle, State.writeRoute, hnone]
    · have htaken : s.opened.pairTaken idx.toNat r = true :=
        (s.opened_pairTaken ..).trans ((s.pairTaken_iff ..).mpr ⟨j, e, hj, he, hpair⟩)
      simp only [State.writeSingle, State.writeRoute, hr, htaken, if_true]
      rfl
    · have hnot : s.opened.pairTaken idx.toNat r = false := by
        rw [s.opened_pairTaken, ← Bool.not_eq_true, s.pairTaken_iff]
        rintro ⟨j, e, hj, he, hpair⟩
        exact hfree j e hj he hpair
      simp only [State.writeSingle, State.writeRoute, hr, hnot, Bool.false_eq_true, if_false, s.opened_commitRoute]
      rfl
  · have hwrite := State.writeTable_singleOf (s := s) (tb := 0x40) (idx := idx) (data := data) (t := .curve) (by decide)
      (by decide) (by decide) (by decide) (State.notLive_of_live hmode rfl) hidx (by rw [hlen]; rfl)
    obtain ⟨hok, hbad⟩ := State.committed_or_refused hwrite h seq
    exact ⟨fun c hc => (hok c hc).trans (by rw [s.opened_commitCurve]), hbad⟩
  · have hwrite := State.writeTable_singleOf (s := s) (tb := 0x50) (idx := idx) (data := data) (t := .signature)
      (by decide) (by decide) (by decide) (by decide) (State.notLive_of_config hconfig _) hidx (by rw [hlen]; rfl)
    obtain ⟨hok, hbad⟩ := State.committed_or_refused hwrite h seq
    exact ⟨fun e he => (hok e he).trans (by rw [s.opened_commitSignature]; rfl), hbad⟩
  · have hwrite := State.writeTable_singleOf (s := s) (tb := 0x60) (idx := idx) (data := data) (t := .cls) (by decide)
      (by decide) (by decide) (by decide) (State.notLive_of_live hmode rfl) hidx (by rw [hdata]; rfl)
    have hparse : parseClass data = some e := by rw [hdata, he]; rfl
    have hok := (State.committed_or_refused hwrite h seq).1 e hparse
    have hcommit := s.opened_commitClass hidx e
    have henable : e.enable = cb.getLsbD 0 := by rw [he]
    rw [henable] at hcommit
    exact ⟨fun hplain => hok.trans (by rw [hcommit.1 hplain]),
      fun cause hon hoff hpending hcause => hok.trans (by rw [hcommit.2 cause hon hoff hpending hcause])⟩
  · have hwrite := State.writeTable_singleOf (s := s) (tb := 0x70) (idx := idx) (data := data) (t := .select) (by decide)
      (by decide) (by decide) (by decide) (State.notLive_of_config hconfig _) hidx (by rw [hlen]; rfl)
    obtain ⟨hok, hbad⟩ := State.committed_or_refused hwrite h seq
    exact ⟨fun r hr => (hok r hr).trans (by rw [s.opened_commitSelect]), hbad⟩
  · have hwrite : s.opened.writeTable 0x80 idx data = s.opened.writeSingle .plan idx.toNat data :=
      State.writeTable_single (by decide) ((s.opened_notLive _).trans (State.notLive_of_config hconfig _))
        ((TableId.indexOk_iff ..).mpr ⟨hidx, fun _ b hb => by rw [hdata] at hb; cases hb; exact hst⟩) (by decide)
        (by decide) (by rw [hlen]; rfl)
    obtain ⟨hok, hbad⟩ := State.committed_or_refused hwrite h seq
    exact ⟨fun p hp => (hok p hp).trans (by rw [s.opened_commitSlot, hdata]; rfl), hbad⟩
  · exact exec_tableWrite h seq (State.writeTable_noTable (by rw [tableNibble_eq]; exact TableId.ofCode_eq_none hn))
  · obtain ⟨hdead, hout, hbad⟩ := State.writeTable_refusals (s := s.opened) (idx := idx) (data := data) hrow hn
    rw [s.opened_mgmt] at hdead hout hbad
    exact ⟨fun hl => exec_tableWrite h seq (hdead hl), fun hl ho => exec_tableWrite h seq (hout hl ho),
      fun hl ho hb => exec_tableWrite h seq (hbad hl ho hb)⟩

/-! ### FIRST and LAST parts (R160) -/

section
variable {s : State} {tb idx : Byte} {data : List Byte} {t : TableId}

theorem State.writeTable_partOf (hcode : TableId.ofCode (tableNibble tb) = some t) (hplan : t ≠ .plan)
    (hbits : (!tableBit3 tb && !tableRun tb) = true) (hlive : s.notLive t = false) (hidx : idx.toNat < t.size)
    (hlen : partLength t (tablePart tb) = some data.length) :
    s.opened.writeTable tb idx data = s.opened.writePart t (tablePart tb) idx.toNat data :=
  State.writeTable_part hcode ((s.opened_notLive t).trans hlive)
    ((TableId.indexOk_iff ..).mpr ⟨hidx, fun h => absurd h hplan⟩) (partOk_of_length hbits hlen)

end

theorem State.writeLast_of_matching {s : State} {t : TableId} {i : Nat} {first : List Byte}
    (h : s.mgmt.staging = some { table := t, index := i, data := first }) (data : List Byte) :
    s.writeLast t i data = (s.setStaging none).writeJoined t i first data := by
  simp [State.writeLast, h]

theorem State.writeLast_of_mismatch {s : State} {t : TableId} {i : Nat}
    (h : s.mgmt.staging = none ∨ ∃ b, s.mgmt.staging = some b ∧ (b.table ≠ t ∨ b.index ≠ i)) (data : List Byte) :
    s.writeLast t i data = (.stageMismatch, s) := by
  rcases h with h | ⟨b, h, hne⟩
  · simp [State.writeLast, h]
  · have hnot : ¬ (b.table = t ∧ b.index = i) := fun k => hne.elim (· k.1) (· k.2)
    simp [State.writeLast, h, hnot]

theorem State.opened_staging (s : State) : s.opened.mgmt.staging = s.mgmt.staging := by
  rw [s.opened_mgmt]

theorem State.opened_commitZone (s : State) (i : Nat) (z : ZoneEntry) : (s.opened.setStaging none).commitZone i z =
    (s.opened.setStaging none).setTables { s.tables with zone := s.tables.zone.setIfInBounds i (some z) } := by
  rw [← s.opened_tables]
  rfl

theorem State.opened_commitJoinedCurve (s : State) (i : Nat) (c : CurveEntry) :
    (s.opened.setStaging none).commitCurve i c =
      (s.opened.setStaging none).setTables { s.tables with curve := s.tables.curve.setIfInBounds i (some c) } := by
  rw [← s.opened_tables]
  rfl

/-- Settles O45: the first part is staged, the last part joins what it matches. -/
theorem twoPartEntriesAreStaged : Obligations.TwoPartEntriesAreStaged := by
  intro s seq idx data first z c
  refine ⟨fun h hconfig hidx hlen => ?_, fun h hmode hidx hlen => ?_, fun h hconfig hidx hlen => ?_,
    fun h hmode hidx hlen hstaged hjoined => ?_⟩
  · exact exec_tableWriteFirst h seq (State.writeTable_partOf (t := .zone) (by decide) (by decide) (by decide)
      (State.notLive_of_config hconfig _) hidx (by rw [hlen]; decide))
  · exact exec_tableWriteFirst h seq (State.writeTable_partOf (t := .curve) (by decide) (by decide) (by decide)
      (State.notLive_of_live hmode rfl) hidx (by rw [hlen]; decide))
  · have hwrite : s.opened.writeTable 0x32 idx data = s.opened.writeLast .zone idx.toNat data :=
      State.writeTable_partOf (t := .zone) (by decide) (by decide) (by decide) (State.notLive_of_config hconfig _) hidx
        (by rw [hlen]; decide)
    refine ⟨fun hmismatch => exec_tableWriteLast h seq (hwrite.trans
      (State.writeLast_of_mismatch (by rw [s.opened_staging]; exact hmismatch) data)), fun hstaged => ?_⟩
    have hlast := hwrite.trans (State.writeLast_of_matching ((s.opened_staging).trans hstaged) data)
    refine ⟨fun hz => exec_tableWriteLast h seq (hlast.trans ?_), fun hz => exec_tableWriteLast h seq (hlast.trans ?_)⟩
    · rw [State.writeJoined, commitOr_some hz, s.opened_commitZone]
    · rw [State.writeJoined, commitOr_none hz]
  · have hwrite : s.opened.writeTable 0x42 idx data = s.opened.writeLast .curve idx.toNat data :=
      State.writeTable_partOf (t := .curve) (by decide) (by decide) (by decide) (State.notLive_of_live hmode rfl) hidx
        (by rw [hlen]; decide)
    refine exec_tableWriteLast h seq (hwrite.trans
      ((State.writeLast_of_matching ((s.opened_staging).trans hstaged) data).trans ?_))
    rw [State.writeJoined, commitOr_some hjoined, s.opened_commitJoinedCurve]

end Sys2Proof.Machine
end

section
/-! Raises: counted, taken or dropped, and containment (R70, R74, R80, R81, R177): O23, O24 and O55. -/

namespace Sys2Proof.Machine

/-! ### The latch that a raise reaches (R74) -/

theorem State.latchAt_setLatch {c : Nat} (hc : c < 12) (l : Latch) (s : State) : (s.setLatch c l).latchAt c = l := by
  show ((s.latches.setIfInBounds c l)[c]?).getD _ = l
  rw [Vector.getElem?_setIfInBounds_self_of_lt hc]
  rfl

section
variable {u : State} {c : Nat} {cause : Cause}

theorem State.latchRaise_counts (h : (u.latchAt c).state = .pending ∨ (u.latchAt c).state = .recovering ∨
    (u.latchAt c).state = .failed) :
    u.latchRaise c cause = u.setLatch c { u.latchAt c with count := min 255 ((u.latchAt c).count + 1) } := by
  unfold State.latchRaise
  rcases h with h | h | h <;>
  · dsimp only
    rw [h]
    rfl

theorem State.latchRaise_clear (h : (u.latchAt c).state = .clear) : u.latchRaise c cause = u.becomePending c cause 1 := by
  unfold State.latchRaise
  dsimp only
  rw [h]

theorem State.latchRaise_resolved (h : (u.latchAt c).state = .resolved) :
    u.latchRaise c cause = u.becomePending c cause (min 255 ((u.latchAt c).count + 1)) := by
  unfold State.latchRaise
  dsimp only
  rw [h]
  rfl

/-- What a new first cause leaves, before an enabled class's evaluation. -/
def State.pendingMarked (c : Nat) (cause : Cause) (n : Nat) (u : State) : State :=
  let latched := u.setLatch c { state := .pending, count := n, firstCause := some cause, ending := none }
  let noticed := if (u.classAt c).enable then latched.notifyLatched c cause cause.time else latched
  match cause.zone with
  | some z => noticed.autoMark c z cause.time
  | none => noticed

theorem State.becomePending_eq (c : Nat) (cause : Cause) (n : Nat) (u : State) : u.becomePending c cause n =
    if (u.classAt c).enable then (u.pendingMarked c cause n).runEvaluate else u.pendingMarked c cause n := by
  unfold State.becomePending State.pendingMarked
  cases cause.zone <;> rfl

theorem State.pendingMarked_latches (c : Nat) (cause : Cause) (n : Nat) (u : State) :
    (u.pendingMarked c cause n).latches =
      (u.setLatch c { state := .pending, count := n, firstCause := some cause, ending := none }).latches := by
  unfold State.pendingMarked
  cases cause.zone <;> cases (u.classAt c).enable <;> rfl

theorem State.becomePending_latch (hc : c < 12) (n : Nat) :
    ((u.becomePending c cause n).latchAt c).count = n ∧ ((u.becomePending c cause n).latchAt c).firstCause = some cause := by
  have hmarked : (u.pendingMarked c cause n).latchAt c =
      { state := .pending, count := n, firstCause := some cause, ending := none } := by
    rw [State.latchAt, u.pendingMarked_latches]
    exact State.latchAt_setLatch hc _ u
  have hframe := (u.pendingMarked c cause n).runEvaluate_frame.latches c
  rw [State.becomePending_eq]
  split
  · rw [hframe.1, hframe.2, hmarked]
    exact ⟨rfl, rfl⟩
  · rw [hmarked]
    exact ⟨rfl, rfl⟩

theorem State.becomePending_of_disabled (hoff : (u.classAt c).enable = false) (hzone : cause.zone = none) (n : Nat) :
    u.becomePending c cause n =
      u.setLatch c { state := .pending, count := n, firstCause := some cause, ending := none } := by
  rw [State.becomePending_eq, hoff, if_neg Bool.false_ne_true, State.pendingMarked, hoff, hzone]
  rfl

end

/-! ### Which raises are taken (R70, R177) -/

section
variable {s : State} {c : Nat} {cause : Cause}

theorem State.raise_armed (h : s.mgmt.engine = .armed) : s.raise c cause = s.takeRaise c cause := by
  have hengine : s.engine = .armed := h
  rw [State.raise, hengine]

theorem State.raise_watch (h : s.mgmt.engine = .watch) (hwatch : (s.classAt c).watch = true) :
    s.raise c cause = (s.takeRaise c cause).endWatch .fault (some c) := by
  have hengine : s.engine = .watch := h
  simp only [State.raise, hengine, hwatch, if_true]

theorem State.raise_dropped (h : s.mgmt.engine = .config ∨ s.mgmt.engine = .checking ∨
    (s.mgmt.engine = .watch ∧ (s.classAt c).watch = false)) : s.raise c cause = s := by
  rcases h with h | h | ⟨h, hwatch⟩
  · have hengine : s.engine = .config := h
    rw [State.raise, hengine]
  · have hengine : s.engine = .checking := h
    rw [State.raise, hengine]
  · have hengine : s.engine = .watch := h
    simp only [State.raise, hengine, hwatch, Bool.false_eq_true, if_false]

theorem State.takeRaise_plain (h : 3 ≤ c) : s.takeRaise c cause = s.latchRaise c cause :=
  if_neg (Nat.not_le.mpr h)

theorem State.takeRaise_engaged (hc : c ≤ 2) (h : s.contain.engaged = true) :
    s.takeRaise c cause = s.setContain { s.contain with repeats := min 255 (s.contain.repeats + 1) } := by
  rw [State.takeRaise, if_pos hc, if_pos h]
  rfl

theorem State.takeRaise_engages (hc : c ≤ 2) (h : s.contain.engaged = false) :
    s.takeRaise c cause = (s.engageContainment c cause.zone).latchRaise c cause := by
  rw [State.takeRaise, if_pos hc, h, if_neg Bool.false_ne_true]

/-- The state in which a fault ends WATCH. -/
theorem State.endWatch_fault (s : State) (c : Nat) : s.endWatch .fault (some c) =
    ((((s.setWatch none).setEngine .armed).notify .wake 1 (word c) 0xFFFF).syncSilence).runEvaluate := rfl

end

/-- Settles O24: the engine state and the class decide whether the raise is taken, the latch's state what it does. -/
theorem raisesAreTakenCountedOrDropped : Obligations.RaisesAreTakenCountedOrDropped := by
  intro s c cause counted pendingWith
  have hpending (n : Nat) (u : State) : u.becomePending c cause n = pendingWith n u := by
    rw [State.becomePending_eq, State.pendingMarked, State.notifyLatched, State.notifyAt]
    dsimp only [pendingWith]
    cases (u.classAt c).enable <;> cases cause.zone <;> rfl
  refine ⟨fun h => State.raise_dropped (h.imp_right .inl), fun h hw => State.raise_dropped (.inr (.inr ⟨h, hw⟩)),
    fun h hc hon => (State.raise_armed h).trans (State.takeRaise_engaged hc hon),
    fun h hc => (State.raise_armed h).trans (State.takeRaise_plain hc), fun taken h hw htaken => ?_,
    fun u => ⟨State.latchRaise_counts, fun h => (State.latchRaise_clear h).trans (hpending 1 u),
      fun h => (State.latchRaise_resolved h).trans (hpending _ u)⟩, fun h hc hlt hclear => ?_⟩
  · have htake : s.takeRaise c cause = taken := by
      rcases htaken with ⟨hc, rfl⟩ | ⟨hc, hon, rfl⟩
      · exact State.takeRaise_plain hc
      · exact State.takeRaise_engaged hc hon
    rw [State.raise_watch h hw, htake, State.endWatch_fault]
  · rw [State.raise_armed h, State.takeRaise_plain hc, State.latchRaise_clear hclear]
    obtain ⟨hcount, hcause⟩ := State.becomePending_latch (u := s) (cause := cause) hlt 1
    exact ⟨hcount, hcause, fun hoff hzone => State.becomePending_of_disabled hoff hzone 1⟩

/-! ### Containment engages (R80) -/

/-- Containment, the sequence lock, the force-offs and the image, which no latch and no plan touches. -/
structure State.GuardsKept (s t : State) : Prop where
  image   : t.image = s.image
  contain : t.contain = s.contain
  lock    : t.gate.lock = s.gate.lock
  forced  : ∀ i, (t.gateAt i).forceOffDue = (s.gateAt i).forceOffDue ∧ (t.gateAt i).deferred = (s.gateAt i).deferred

theorem State.GuardsKept.trans {s t u : State} (h : s.GuardsKept t) (k : t.GuardsKept u) : s.GuardsKept u where
  image := k.image.trans h.image
  contain := k.contain.trans h.contain
  lock := k.lock.trans h.lock
  forced i := ⟨(k.forced i).1.trans (h.forced i).1, (k.forced i).2.trans (h.forced i).2⟩

theorem State.GuardsKept.of_same {s t : State} (himage : t.image = s.image) (hcontain : t.contain = s.contain) (hgate : t.gate = s.gate) :
    s.GuardsKept t where
  image := himage
  contain := hcontain
  lock := by rw [hgate]
  forced i := by rw [State.gateAt, State.gateAt, hgate]; exact ⟨rfl, rfl⟩

theorem State.ExecutorFrame.guards {s t : State} (h : s.ExecutorFrame t) : s.GuardsKept t where
  image := h.image
  contain := h.contain
  lock := h.lock
  forced := h.forced

theorem State.pendingMarked_guards (c : Nat) (cause : Cause) (n : Nat) (u : State) :
    u.GuardsKept (u.pendingMarked c cause n) := by
  unfold State.pendingMarked
  cases cause.zone <;> cases (u.classAt c).enable <;> exact .of_same rfl rfl rfl

theorem State.becomePending_guards (c : Nat) (cause : Cause) (n : Nat) (u : State) :
    u.GuardsKept (u.becomePending c cause n) := by
  have hmarked := u.pendingMarked_guards c cause n
  rw [State.becomePending_eq]
  split
  · exact hmarked.trans (State.runEvaluate_frame _).guards
  · exact hmarked

theorem State.latchRaise_guards (c : Nat) (cause : Cause) (u : State) : u.GuardsKept (u.latchRaise c cause) := by
  unfold State.latchRaise
  dsimp only
  split
  · exact u.becomePending_guards ..
  · exact u.becomePending_guards ..
  · exact .of_same rfl rfl rfl
  · exact .of_same rfl rfl rfl
  · exact .of_same rfl rfl rfl

theorem State.endWatch_guards (cause : WakeCause) (cls : Option Nat) (u : State) :
    u.GuardsKept (u.endWatch cause cls) := by
  have hwoken (w : State) : w.GuardsKept w.enterArmed := by
    obtain ⟨d, h⟩ := syncSilence_eq w
    have hsync : w.GuardsKept w.syncSilence := by
      rw [h]
      exact .of_same rfl rfl rfl
    exact hsync.trans (State.runEvaluate_frame _).guards
  refine State.GuardsKept.trans ?_ (hwoken _)
  exact .of_same rfl rfl rfl

theorem State.pendingMarked_mgmt (c : Nat) (cause : Cause) (n : Nat) (u : State) :
    (u.pendingMarked c cause n).mgmt = u.mgmt := by
  unfold State.pendingMarked
  cases cause.zone <;> cases (u.classAt c).enable <;> rfl

theorem State.becomePending_mgmt (c : Nat) (cause : Cause) (n : Nat) (u : State) :
    (u.becomePending c cause n).mgmt = u.mgmt := by
  rw [State.becomePending_eq]
  split
  · rw [(State.runEvaluate_frame _).mgmt, u.pendingMarked_mgmt]
  · exact u.pendingMarked_mgmt ..

theorem State.latchRaise_mgmt (c : Nat) (cause : Cause) (u : State) : (u.latchRaise c cause).mgmt = u.mgmt := by
  unfold State.latchRaise
  dsimp only
  split
  · exact u.becomePending_mgmt ..
  · exact u.becomePending_mgmt ..
  · rfl
  · rfl
  · rfl

/-- One gate entry after another owes a force-off. -/
theorem oweForceOffs_fold (is : List Nat) (his : ∀ i ∈ is, i < 64) (s : State) : ∃ cells,
    is.foldl (fun s i => s.modGate i fun c => { c with forceOffDue := true, deferred := false }) s =
      { s with gate := { s.gate with cells := cells } } ∧
    ∀ i, (State.gateAt { s with gate := { s.gate with cells := cells } } i) =
      if i ∈ is then { s.gateAt i with forceOffDue := true, deferred := false } else s.gateAt i := by
  induction is generalizing s with
  | nil => exact ⟨s.gate.cells, rfl, fun i => (if_neg List.not_mem_nil).symm⟩
  | cons k is ih =>
    obtain ⟨hk, hrest⟩ := List.forall_mem_cons.mp his
    obtain ⟨cells, hfold, hcells⟩ := ih hrest (s.modGate k fun c => { c with forceOffDue := true, deferred := false })
    refine ⟨cells, hfold, fun i => (hcells i).trans ?_⟩
    rw [State.gateAt_modGate]
    by_cases hi : i ∈ is
    · rw [if_pos hi, if_pos (List.mem_cons_of_mem k hi)]
      split <;> rfl
    · rw [if_neg hi]
      by_cases hki : k = i
      · rw [if_pos ⟨hki, hki ▸ hk⟩, if_pos (by rw [hki]; exact List.mem_cons_self)]
      · rw [if_neg fun h => hki h.1, if_neg fun h => (List.mem_cons.mp h).elim (fun h => hki h.symm) hi]

theorem State.hasKind_lt {s : State} {i : Nat} {k : RouteKind} (h : s.hasKind i k = true) : i < 64 := by
  unfold State.hasKind at h
  split at h
  next r hr => exact State.routeAt_lt hr
  next => cases h

theorem State.oweForceOffs_eq (s : State) : ∃ cells,
    s.oweForceOffs = { s with gate := { s.gate with cells := cells } } ∧
    ∀ i, (State.gateAt { s with gate := { s.gate with cells := cells } } i) =
      if s.hasKind i .heater then { s.gateAt i with forceOffDue := true, deferred := false } else s.gateAt i := by
  have hmem (i : Nat) : i ∈ (List.range Config.routes).filter (fun i => s.hasKind i .heater) ↔
      s.hasKind i .heater = true := by
    rw [List.mem_filter, List.mem_range]
    exact ⟨And.right, fun h => ⟨State.hasKind_lt h, h⟩⟩
  obtain ⟨cells, hfold, hcells⟩ := oweForceOffs_fold _ (fun i hi => State.hasKind_lt ((hmem i).mp hi)) s
  refine ⟨cells, hfold, fun i => (hcells i).trans ?_⟩
  simp only [hmem]

/-- The state in which containment has just engaged. -/
theorem State.engageContainment_eq (s : State) (c : Nat) (zone : Option Nat) : ∃ cells : Vector GateCell 64,
    s.engageContainment c zone = { s with
      contain := { engaged := true, firstCause := some { cls := c, zone := zone }, repeats := 0 }
      gate := { s.gate with cells := cells, lock := none }
      notices := pushNotice s.notices
        { kind := .containEngaged, time := s.time.clock, a := word c, b := optHalf zone, c := 0xFFFF,
          overflowed := false } } ∧
    ∀ i, (s.engageContainment c zone).gateAt i =
      if s.hasKind i .heater then { s.gateAt i with forceOffDue := true, deferred := false } else s.gateAt i := by
  obtain ⟨cells, howe, hcells⟩ := State.oweForceOffs_eq
    (s.setContain { engaged := true, firstCause := some { cls := c, zone := zone }, repeats := 0 })
  refine ⟨cells, ?_, fun i => ?_⟩
  · rw [State.engageContainment, howe]
    simp only [State.setContain, State.setLock, State.notify, State.notifyAt, State.setNotices, State.now]
    rfl
  · rw [State.engageContainment, howe]
    exact hcells i

/-- Settles O23: containment engages, the latch acts, and in WATCH the engine returns to ARMED. -/
theorem containmentEngages : Obligations.ContainmentEngages := by
  intro s c cause hc hoff hengine
  obtain ⟨cells, heq, hcells⟩ := s.engageContainment_eq c cause.zone
  have htake : s.takeRaise c cause = (s.engageContainment c cause.zone).latchRaise c cause :=
    State.takeRaise_engages hc hoff
  have hguards : (s.engageContainment c cause.zone).GuardsKept (s.raise c cause) := by
    have hlatch := (s.engageContainment c cause.zone).latchRaise_guards c cause
    rcases hengine with h | ⟨h, hw⟩
    · rw [State.raise_armed h, htake]
      exact hlatch
    · rw [State.raise_watch h hw, htake]
      exact hlatch.trans (State.endWatch_guards ..)
  have harmed : (s.raise c cause).mgmt.engine = .armed := by
    rcases hengine with h | ⟨h, hw⟩
    · rw [State.raise_armed h, htake, State.latchRaise_mgmt, heq]
      exact h
    · rw [State.raise_watch h hw]
      exact State.endWatch_engine ..
  refine ⟨?_, ?_, harmed, fun i hi => ?_, cells, ?_, ?_, ?_⟩
  · rw [hguards.contain, heq]
  · rw [hguards.lock, heq]
  · obtain ⟨hdue, hdeferred⟩ := hguards.forced i
    rw [hdue, hdeferred, hcells i, if_pos hi]
    exact ⟨rfl, rfl⟩
  · intro h
    rw [State.raise_armed h, htake, heq]
  · intro h
    have hw : (s.classAt c).watch = true := hengine.elim (fun k => by rw [h] at k; cases k) And.right
    rw [State.raise_watch h hw, htake, heq, State.endWatch_fault]
  · intro i
    rw [← heq]
    exact hcells i

/-! ### The silence timer and the clock (R72, R173) -/

theorem State.raise_now (c : Nat) (cause : Cause) (s : State) : (s.raise c cause).now = s.now :=
  ((State.EventFrame.refl s).raise c cause).clock

theorem State.raise_silenceLimit (c : Nat) (cause : Cause) (s : State) : (s.raise c cause).silenceLimit = s.silenceLimit := by
  rw [State.silenceLimit, ((State.EventFrame.refl s).raise c cause).tables, State.silenceLimit]

/-- Settles O55: the clock's marks, and CTRL_SILENT raised at the deadline. -/
theorem clockAndSilenceTimer : Obligations.ClockAndSilenceTimer := by
  refine ⟨fun s => rfl, fun s => ⟨fun h => congrArg Host.Outcome.next (if_neg (by rw [State.now, h]; exact Bool.false_ne_true)),
    fun hdue => ?_, fun hdue harmed hcounts => ?_⟩⟩
  · intro cause
    have hexpire : exec .silenceExpiry s =
        .next ((s.raise 10 cause).setSilence (some (s.time.clock + BitVec.ofNat 32 (100 * s.silenceLimit)))) := by
      refine congrArg Host.Outcome.next ((if_pos hdue).trans ?_)
      rw [State.expireSilence, State.raise_now, State.raise_silenceLimit]
      rfl
    refine ⟨hexpire, fun harmed hfree => ?_⟩
    rw [State.raise_armed harmed, State.takeRaise_plain (by decide)]
    rcases hfree with hclear | hresolved
    · obtain ⟨hcount, hcause⟩ := State.becomePending_latch (u := s) (cause := cause) (c := 10) (by decide) 1
      rw [State.latchRaise_clear hclear, if_pos hclear]
      exact ⟨hcause, hcount⟩
    · have hnot : (s.latchAt 10).state ≠ .clear := by rw [hresolved]; decide
      obtain ⟨hcount, hcause⟩ := State.becomePending_latch (u := s) (cause := cause) (c := 10) (by decide)
        (min 255 ((s.latchAt 10).count + 1))
      rw [State.latchRaise_resolved hresolved, if_neg hnot]
      exact ⟨hcause, hcount⟩
  · refine congrArg Host.Outcome.next ((if_pos hdue).trans ?_)
    rw [State.expireSilence, State.raise_now, State.raise_silenceLimit, State.raise_armed harmed,
      State.takeRaise_plain (by decide), State.latchRaise_counts hcounts]
    rfl

end Sys2Proof.Machine
end

section
/-! A reading and its stages (R47, R48), and the evaluation of one signature (R64 to R68): O21 and O22. -/

namespace Sys2Proof.Machine

/-! ### The image at a raise and in the rack journal -/

theorem State.takeRaise_image (c : Nat) (cause : Cause) (s : State) : (s.takeRaise c cause).image = s.image := by
  unfold State.takeRaise
  split
  · split
    · rfl
    · obtain ⟨cells, heq, _⟩ := s.engageContainment_eq c cause.zone
      rw [(State.latchRaise_guards ..).image, heq]
  · exact (State.latchRaise_guards ..).image

theorem State.raise_image (c : Nat) (cause : Cause) (s : State) : (s.raise c cause).image = s.image := by
  unfold State.raise
  split
  · exact s.takeRaise_image ..
  · split
    · rw [(State.endWatch_guards ..).image, s.takeRaise_image]
    · rfl
  · rfl
  · rfl

theorem State.trackFault_image (k : TrackCause) (tag : Option Tag) (s : State) : (s.trackFault k tag).image = s.image :=
  State.raise_image ..

theorem State.offerIndicator_image (s : State) : s.offerIndicator.image = s.image := by
  unfold State.offerIndicator State.appendOrder
  split
  · split
    · split <;> rfl
    · rfl
  · rfl

theorem State.removeRack_image (k : Nat) (missed : Bool) (s : State) : (s.removeRack k missed).image = s.image := by
  unfold State.removeRack
  split
  · rfl
  · dsimp only
    split
    · rfl
    · exact State.offerIndicator_image _

theorem State.removeMissed_image (k : Nat) (s : State) : (s.removeMissed k).image = s.image := by
  unfold State.removeMissed
  split
  · rfl
  · rw [State.trackFault_image, State.removeRack_image]

theorem State.entryEye_image (blocked : Bool) (s : State) : (s.entryEye blocked).image = s.image := by
  have hblocked : s.entryBlocked.image = s.image := by
    unfold State.entryBlocked
    split
    · rfl
    · exact State.trackFault_image ..
  have hcleared : s.entryCleared.image = s.image := by
    unfold State.entryCleared
    split
    · rfl
    · split
      · split <;> rfl
      · rfl
  unfold State.entryEye
  split
  · rfl
  · dsimp only
    split
    · split
      · exact hblocked
      · exact hcleared
    · rfl

theorem State.exitEye_image (blocked : Bool) (s : State) : (s.exitEye blocked).image = s.image := by
  have hblocked : s.exitBlocked.image = s.image := by
    unfold State.exitBlocked
    split
    · split
      · dsimp only
        split
        · exact State.trackFault_image ..
        · split
          · rfl
          · exact State.removeMissed_image ..
      · rfl
    · exact State.trackFault_image ..
    · rfl
  have hcleared : s.exitCleared.image = s.image := by
    unfold State.exitCleared
    split
    · exact State.removeRack_image ..
    · rfl
  unfold State.exitEye
  split
  · rfl
  · dsimp only
    split
    · split
      · exact hblocked
      · exact hcleared
    · rfl

theorem State.advanceTravel_image (v : Half) (s : State) : (s.advanceTravel v).image = s.image := by
  unfold State.advanceTravel
  dsimp only
  split
  · split
    · split
      · exact State.removeMissed_image ..
      · rfl
    · rfl
  · rfl

theorem State.journalReading_image (i : Nat) (v : Half) (ok : Bool) (s : State) :
    (s.journalReading i v ok).image = s.image := by
  have hentry (l : LineRecord) : (if l.entryEye = i then s.entryEye (v ≠ 0) else s).image = s.image := by
    split
    · exact s.entryEye_image _
    · rfl
  have hexit (l : LineRecord) (u : State) : (if l.exitEye = i then u.exitEye (v ≠ 0) else u).image = u.image := by
    split
    · exact u.exitEye_image _
    · rfl
  have hadvance (l : LineRecord) (u : State) :
      (if l.advance = i ∧ u.engine = .armed ∧ v.toNat ≤ 255 then u.advanceTravel v else u).image = u.image := by
    split
    · exact u.advanceTravel_image v
    · rfl
  unfold State.journalReading
  split
  · rfl
  next l _ =>
    split
    · exact (hadvance l _).trans ((hexit l _).trans (hentry l))
    · rfl

/-! ### The image in the monitor and the executor -/

theorem State.settleSignature_image (g : Nat) (e : SigEntry) (ev : Evaluation) (anchor : Option (Half × Clock)) (s : State) :
    (s.settleSignature g e ev anchor).image = s.image := by
  unfold State.settleSignature
  dsimp only
  split
  · rfl
  · rfl
  · split
    · exact State.raise_image ..
    · rfl

theorem State.evalReading_image (g i : Nat) (v : Half) (ok : Bool) (s : State) :
    (s.evalReading g i v ok).image = s.image := by
  unfold State.evalReading
  split
  · rfl
  · split
    · dsimp only
      split
      · exact State.settleSignature_image ..
      · exact State.settleSignature_image ..
    · rfl

theorem State.monitorReading_image (i : Nat) (v : Half) (ok : Bool) (s : State) :
    (s.monitorReading i v ok).image = s.image := by
  unfold State.monitorReading
  induction List.range Config.signatures generalizing s with
  | nil => rfl
  | cons g gs ih => exact (ih _).trans (s.evalReading_image g i v ok)

theorem State.imageAt_modImage {i : Nat} (hi : i < 64) (f : ImageCell → ImageCell) (s : State) (j : Nat) :
    (s.modImage i f).imageAt j = if i = j then f (s.imageAt j) else s.imageAt j := by
  rw [State.imageAt, State.modImage_image]
  rw [Vector.getElem?_setIfInBounds]
  split
  next h => subst h; rfl
  next => rfl

/-- Settles O21: the four stages, of which the first alone changes the image. -/
theorem readingUpdatesItsImageEntry : Obligations.ReadingUpdatesItsImageEntry := by
  intro s i v ok hi
  have hread (c : ImageCell) : c.read v ok s.now =
      if ok then { c with value := v, status := .fresh, lastReading := some s.time.clock, pollRef := some s.time.clock }
      else { c with status := .bad, lastReading := some s.time.clock, pollRef := some s.time.clock } := rfl
  have hcell (j : Nat) : (s.markWaits.modImage i fun c => c.read v ok s.now).imageAt j =
      if i = j then (s.imageAt j).read v ok s.now else s.imageAt j := State.imageAt_modImage hi _ s.markWaits j
  have himage : (s.takeReading i v ok).image = (s.markWaits.modImage i fun c => c.read v ok s.now).image := by
    unfold State.takeReading
    dsimp only
    rw [((State.ExecutorFrame.refl _).executorReading i v ok).image, State.monitorReading_image,
      State.journalReading_image]
  have hafter (j : Nat) : (s.takeReading i v ok).imageAt j =
      if i = j then (s.imageAt j).read v ok s.now else s.imageAt j := by
    rw [← hcell j, State.imageAt, himage, State.imageAt]
  refine ⟨⟨?_, fun j hj => ?_⟩, ?_⟩
  · rw [hafter i, if_pos rfl, hread]
  · rw [hafter j, if_neg (Ne.symm hj)]
  · have hheld : ((s.markWaits.modImage i fun c => c.read v ok s.now).imageAt i).value =
        if ok then v else (s.imageAt i).value := by
      rw [hcell i, if_pos rfl, hread]
      cases ok <;> rfl
    unfold State.takeReading State.monitorReading
    dsimp only
    rw [hheld]
    rfl

/-! ### The evaluation of one signature -/

theorem State.setRun_self (g : Nat) (s : State) : s.setRun g (s.runAt g) = s := by
  have hsame : s.monitor.setIfInBounds g (s.runAt g) = s.monitor := by
    apply Vector.ext
    intro k hk
    rw [Vector.getElem_setIfInBounds]
    split
    next h => subst h; simp [State.runAt, hk]
    next => rfl
  rw [State.setRun, hsame]

theorem State.settleSignature_unchanged (g : Nat) (e : SigEntry) (s : State) :
    s.settleSignature g e undecided (s.runAt g).anchor = s := s.setRun_self g

/-- What a decided test leaves of the run state, and when it raises. -/
theorem State.settleSignature_decided (g : Nat) (e : SigEntry) (hit : Bool) (x : Int) (anchor : Option (Half × Clock))
    (s : State) :
    (hit = false → s.settleSignature g e (decided hit x) anchor = s.setRun g { count := 0, last := .no, anchor := anchor }) ∧
    (hit = true → (s.runAt g).count + 1 < e.persistence → s.settleSignature g e (decided hit x) anchor =
      s.setRun g { count := (s.runAt g).count + 1, last := .hit, anchor := anchor }) ∧
    (hit = true → e.persistence ≤ (s.runAt g).count + 1 → s.settleSignature g e (decided hit x) anchor =
      (s.setRun g { count := 0, last := .hit, anchor := anchor }).raise e.cls
        { source := .signature g, zone := e.zone, value := max (-32768) (min 32767 x), time := s.time.clock }) := by
  refine ⟨fun h => ?_, fun h hcount => ?_, fun h hcount => ?_⟩
  · subst h
    rfl
  · subst h
    exact if_neg (Nat.not_le.mpr hcount)
  · subst h
    exact if_pos hcount

section
variable {s : State} {g i : Nat} {e : SigEntry} {v : Half} {ok : Bool}

theorem State.gatesHold_iff (s : State) (e : SigEntry) : s.gatesHold e = true ↔
    (1 ≤ e.gateCount → s.gateHolds e.gate1 = true) ∧ (2 ≤ e.gateCount → s.gateHolds e.gate2 = true) := by
  simp only [State.gatesHold, Bool.and_eq_true, Bool.or_eq_true, decide_eq_true_eq]
  refine and_congr ?_ ?_
  · rw [← Nat.not_le, ← imp_iff_not_or]
  · rw [← Nat.not_le, ← imp_iff_not_or]

theorem State.gateHolds_iff (s : State) (c : GateCond) : s.gateHolds c = true ↔
    if c.on then (s.imageAt c.ref).applied ≠ 0 else (s.imageAt c.ref).applied = 0 := by
  unfold State.gateHolds
  cases c.on <;> simp

theorem State.evaluates_iff (s : State) (e : SigEntry) : s.evaluates e = true ↔
    s.mgmt.engine = .armed ∨ (s.mgmt.engine = .watch ∧ (s.classAt e.cls).watch = true) := by
  show _ ↔ s.engine = .armed ∨ (s.engine = .watch ∧ _)
  unfold State.evaluates
  cases s.engine <;> simp

theorem State.evaluates_eq_false (h : s.mgmt.engine = .config ∨ s.mgmt.engine = .checking ∨
    (s.mgmt.engine = .watch ∧ (s.classAt e.cls).watch = false)) : s.evaluates e = false := by
  rw [← Bool.not_eq_true, s.evaluates_iff]
  rcases h with h | h | ⟨h, hw⟩
  · simp [h]
  · simp [h]
  · simp [h, hw]

variable (hsig : s.sigAt g = some e)
include hsig

theorem State.evalReading_skipped (h : e.chA ≠ i ∨ s.evaluates e = false) : s.evalReading g i v ok = s := by
  simp only [State.evalReading, hsig]
  refine if_neg fun ⟨hch, heval⟩ => ?_
  rcases h with h | h
  · exact h hch
  · rw [h] at heval
    cases heval

variable (hch : e.chA = i) (heval : s.evaluates e = true)
include hch heval

theorem State.evalReading_plain (htest : e.test ≠ .changeBelow) : s.evalReading g i v ok =
    s.settleSignature g e (if s.gatesHold e then s.testReading e v ok else undecided) (s.runAt g).anchor := by
  simp only [State.evalReading, hsig, if_pos (And.intro hch heval), if_neg htest]

theorem State.evalReading_change (htest : e.test = .changeBelow) : s.evalReading g i v ok =
    s.settleSignature g e (changeBelow e (s.gatesHold e) (s.runAt g).anchor v ok s.now).1
      (changeBelow e (s.gatesHold e) (s.runAt g).anchor v ok s.now).2 := by
  simp only [State.evalReading, hsig, if_pos (And.intro hch heval), if_pos htest]

/-- A test that comes to no decision leaves the state. -/
theorem State.evalReading_undecided (htest : e.test ≠ .changeBelow)
    (h : s.gatesHold e = false ∨ s.testReading e v ok = undecided) : s.evalReading g i v ok = s := by
  rw [State.evalReading_plain hsig hch heval htest]
  have hnone : (if s.gatesHold e then s.testReading e v ok else undecided) = undecided := by
    rcases h with h | h
    · rw [h, if_neg Bool.false_ne_true]
    · rw [h, ite_self]
  rw [hnone, State.settleSignature_unchanged]

theorem State.evalReading_decided (htest : e.test ≠ .changeBelow) (hgates : s.gatesHold e = true) {hit : Bool} {x : Int}
    (h : s.testReading e v ok = decided hit x) :
    s.evalReading g i v ok = s.settleSignature g e (decided hit x) (s.runAt g).anchor := by
  rw [State.evalReading_plain hsig hch heval htest, if_pos hgates, h]

end

/-! ### What each test finds (R66) -/

section
variable {s : State} {e : SigEntry} {v : Half} {ok : Bool}

theorem State.testReading_notOk (h : e.test = .above ∨ e.test = .below ∨ e.test = .equal ∨ e.test = .diffAbove)
    (hok : ok = false) : s.testReading e v ok = undecided := by
  subst hok
  rcases h with h | h | h | h
  · rw [State.testReading, h]
    rfl
  · rw [State.testReading, h]
    rfl
  · rw [State.testReading, h]
    rfl
  · rw [State.testReading, h]
    cases e.chB <;> rfl

theorem State.testReading_notFresh {b : Nat} (h : e.test = .diffAbove) (hb : e.chB = some b)
    (hfresh : (s.imageAt b).status ≠ .fresh) : s.testReading e v ok = undecided := by
  simp only [State.testReading, h, hb]
  exact if_neg fun k => hfresh k.2

/-- The outcome of each test that decides. -/
theorem State.testReading_decided {hit : Bool} {x : Int}
    (h : (ok = true ∧ x = v.toNat ∧
            ((e.test = .above ∧ hit = decide (e.threshold < x)) ∨ (e.test = .below ∧ hit = decide (x < e.threshold)) ∨
              (e.test = .equal ∧ hit = decide (x = e.threshold))) ∨
          (ok = true ∧ e.test = .diffAbove ∧ hit = decide (e.threshold < x) ∧ ∃ b, e.chB = some b ∧
            (s.imageAt b).status = .fresh ∧ x = (v.toNat : Int) - (s.imageAt b).value.toNat) ∨
          (x = 0 ∧ e.test = .bad ∧ hit = !ok) ∨ (x = 0 ∧ e.test = .stale ∧ hit = false))) :
    s.testReading e v ok = decided hit x ∧ e.test ≠ .changeBelow := by
  rcases h with ⟨rfl, rfl, ⟨ht, rfl⟩ | ⟨ht, rfl⟩ | ⟨ht, rfl⟩⟩ | ⟨rfl, ht, rfl, b, hb, hfresh, rfl⟩ | ⟨rfl, ht, rfl⟩ |
    ⟨rfl, ht, rfl⟩
  · exact ⟨by rw [State.testReading, ht]; rfl, by rw [ht]; decide⟩
  · exact ⟨by rw [State.testReading, ht]; rfl, by rw [ht]; decide⟩
  · exact ⟨by rw [State.testReading, ht]; rfl, by rw [ht]; decide⟩
  · refine ⟨?_, by rw [ht]; decide⟩
    simp only [State.testReading, ht, hb]
    exact if_pos ⟨trivial, hfresh⟩
  · exact ⟨by rw [State.testReading, ht], by rw [ht]; decide⟩
  · exact ⟨by rw [State.testReading, ht], by rw [ht]; decide⟩

end

/-- Settles O22: which signatures are evaluated, what each test finds, and what its outcome does. -/
theorem signaturesAreEvaluated : Obligations.SignaturesAreEvaluated := by
  intro s g i e v ok hg hsig run on settled
  have hsettled (hit : Bool) (x : Int) (anchor : Option (Half × Clock)) (t : State)
      (ht : t = s.settleSignature g e (decided hit x) anchor) : settled hit x anchor t := by
    subst ht
    exact s.settleSignature_decided g e hit x anchor
  refine ⟨?_, fun h => ?_, fun hch hengine => ?_⟩
  · rw [s.gatesHold_iff, s.gateHolds_iff, s.gateHolds_iff]
  · exact State.evalReading_skipped hsig (h.imp_right State.evaluates_eq_false)
  · have heval : s.evaluates e = true := (s.evaluates_iff e).mpr hengine
    refine ⟨fun htest hgates => State.evalReading_undecided hsig hch heval htest (.inl hgates), fun htest hok => ?_,
      fun b htest hb hfresh => ?_, fun hit x hgates h => ?_, fun htest => ?_⟩
    · refine State.evalReading_undecided hsig hch heval ?_ (.inr (State.testReading_notOk htest hok))
      rcases htest with h | h | h | h <;> rw [h] <;> decide
    · exact State.evalReading_undecided hsig hch heval (by rw [htest]; decide)
        (.inr (State.testReading_notFresh htest hb hfresh))
    · obtain ⟨hfound, htest⟩ := State.testReading_decided h
      exact hsettled _ _ _ _ (State.evalReading_decided hsig hch heval htest hgates hfound)
    · have hchange := State.evalReading_change (v := v) (ok := ok) hsig hch heval htest
      refine ⟨fun hgates => ?_, fun hgates hok => ?_, fun hgates hok hanchor => ?_, fun v₀ t₀ hgates hok hanchor =>
        ⟨fun hwindow => ?_, fun hwindow => hsettled _ _ _ _ ?_⟩⟩
      · rw [hchange, hgates]
        rfl
      · rw [hchange, hgates, hok]
        rfl
      · rw [hchange, hgates, hok, hanchor]
        rfl
      · have hkept : changeBelow e (s.gatesHold e) (s.runAt g).anchor v ok s.now = (undecided, (s.runAt g).anchor) := by
          rw [hgates, hok, hanchor]
          exact if_pos hwindow
        rw [hchange, hkept, State.settleSignature_unchanged]
      · have hclosed : changeBelow e (s.gatesHold e) (s.runAt g).anchor v ok s.now =
            (decided ((v.toNat : Int) - v₀.toNat < e.threshold) ((v.toNat : Int) - v₀.toNat), some (v, s.now)) := by
          rw [hgates, hok, hanchor]
          exact if_neg (Nat.not_lt.mpr hwindow)
        rw [hchange, hclosed]
        rfl

end Sys2Proof.Machine
end

section
/-! The credit tick (R27, R36 to R39): O17. -/

namespace Sys2Proof.Machine

/-- What a tick makes of one entry of a record's credit list. -/
def State.credited (s : State) (r : Rack) (c : Credit) : Credit :=
  match s.tables.zoneOf (r.centre s.journal.travel) with
  | none => c
  | some z =>
    match s.zoneAt z with
    | none => c
    | some e => if c.zone = z then s.creditEntry e c else c

theorem State.creditRack_credited (s : State) (r : Rack) :
    s.creditRack r = { r with credits := r.credits.map (s.credited r) } := by
  have hsame : r = { r with credits := r.credits.map id } := by rw [List.map_id]
  unfold State.creditRack
  split
  next hnone =>
    have hid : s.credited r = id := by
      funext c
      simp only [State.credited, hnone, id]
    rw [hid]
    exact hsame
  next z hz =>
    split
    next hnone =>
      have hid : s.credited r = id := by
        funext c
        simp only [State.credited, hz, hnone, id]
      rw [hid]
      exact hsame
    next e he =>
      have heach : s.credited r = fun c => if c.zone = z then s.creditEntry e c else c := by
        funext c
        simp only [State.credited, hz, he]
      rw [heach]

section
variable {s : State} {r : Rack} {c : Credit}

theorem State.credited_elsewhere (h : s.tables.zoneOf (r.centre s.journal.travel) ≠ some c.zone) : s.credited r c = c := by
  unfold State.credited
  split
  next => rfl
  next z hz =>
    split
    next => rfl
    next e he => exact if_neg fun hc => h (hz.trans (congrArg some hc.symm))

theorem State.credited_here {e : ZoneEntry} (hz : s.tables.zoneOf (r.centre s.journal.travel) = some c.zone)
    (he : s.zoneAt c.zone = some e) : s.credited r c = s.creditEntry e c := by
  simp only [State.credited, hz, he, if_true]

/-- An entry is credited, or left. -/
theorem State.credited_cases (s : State) (r : Rack) (c : Credit) :
    s.credited r c = c ∨ ∃ e, s.credited r c = s.creditEntry e c := by
  unfold State.credited
  split
  · exact .inl rfl
  · split
    · exact .inl rfl
    next e _ =>
      split
      · exact .inr ⟨e, rfl⟩
      · exact .inl rfl

theorem le_addCredit {n : Nat} (h : n ≤ 65535) (given : Option Nat) : n ≤ addCredit n given := by
  cases given with
  | none => exact Nat.le_refl n
  | some w => exact Nat.le_min.mpr ⟨h, Nat.le_add_right n w⟩

theorem State.credited_zone (s : State) (r : Rack) (c : Credit) : (s.credited r c).zone = c.zone := by
  rcases s.credited_cases r c with h | ⟨e, h⟩
  · rw [h]
  · rw [h]
    rfl

theorem State.credited_gap (h : c.gap = true) : (s.credited r c).gap = true := by
  rcases s.credited_cases r c with k | ⟨e, k⟩
  · rw [k, h]
  · rw [k]
    simp [State.creditEntry, h]

theorem State.credited_heat (h : c.heat ≤ 65535) :
    c.heat ≤ (s.credited r c).heat ∧ (s.credited r c).heat ≤ 65535 := by
  rcases s.credited_cases r c with k | ⟨e, k⟩
  · rw [k]
    exact ⟨Nat.le_refl _, h⟩
  · rw [k]
    dsimp only [State.creditEntry]
    split
    · exact ⟨le_addCredit h _, addCredit_le _ h⟩
    · exact ⟨Nat.le_refl _, h⟩

theorem State.credited_action (h : c.action ≤ 65535) :
    c.action ≤ (s.credited r c).action ∧ (s.credited r c).action ≤ 65535 := by
  rcases s.credited_cases r c with k | ⟨e, k⟩
  · rw [k]
    exact ⟨Nat.le_refl _, h⟩
  · rw [k]
    dsimp only [State.creditEntry]
    split
    · exact ⟨le_addCredit h _, addCredit_le _ h⟩
    · exact ⟨Nat.le_refl _, h⟩

end

section
variable {s : State} {i curve : Nat}

theorem State.tickWeight_fresh {v : CurveEntry} (hfresh : (s.imageAt i).status = .fresh) (hv : s.curveAt curve = some v) :
    s.tickWeight (some i) curve = some (v.weight (s.imageAt i).value.toNat) := by
  simp only [State.tickWeight, hfresh, hv, if_true, Option.map_some]

theorem State.tickWeight_notFresh (h : (s.imageAt i).status ≠ .fresh) (curve : Nat) :
    s.tickWeight (some i) curve = none := by
  simp only [State.tickWeight, if_neg h]

/-- A consulted channel that is FRESH and has its curve leaves no gap. -/
theorem State.tickWeight_isNone {ref : Option Nat}
    (h : ∃ i, ref = some i ∧ (s.imageAt i).status = .fresh ∧ (s.curveAt curve).isSome = true) :
    (s.tickWeight ref curve).isNone = false := by
  obtain ⟨i, rfl, hfresh, hcurve⟩ := h
  obtain ⟨v, hv⟩ := Option.isSome_iff_exists.mp hcurve
  rw [State.tickWeight_fresh hfresh hv]
  rfl

end

/-- Settles O17: each entry of each record's list, by the zone of the record's centre. -/
theorem creditTickCreditsEveryRecord : Obligations.CreditTickCreditsEveryRecord := by
  refine ⟨fun s h => congrArg Host.Outcome.next (if_neg ?_), fun s harmed hdue => ?_⟩
  · rintro ⟨hdue, harmed⟩
    rcases h with h | h
    · exact h harmed
    · rw [h] at hdue
      cases hdue
  refine ⟨s.journal.racks.map s.creditRack, congrArg Host.Outcome.next (if_pos ⟨hdue, harmed⟩),
    List.length_map _, fun k r hr => ⟨r.credits.map (s.credited r), ?_, List.length_map _, fun j c hc => ?_⟩⟩
  · rw [List.getElem?_map, hr, Option.map_some, s.creditRack_credited]
  · refine ⟨s.credited r c, by rw [List.getElem?_map, hc]; rfl, s.credited_zone r c, State.credited_gap,
      State.credited_heat, State.credited_action, State.credited_elsewhere, fun e i v hz he htarget htemp hcurve => ?_,
      fun e i v hz he htarget hpress hcurve => ?_, fun e hz he => ?_⟩
    · rw [State.credited_here hz he, State.creditEntry, htemp]
      refine ⟨fun hfresh => ?_, fun hnot => ?_⟩
      · dsimp only
        rw [if_pos htarget, State.tickWeight_fresh hfresh hcurve]
        rfl
      · dsimp only
        rw [if_pos htarget, State.tickWeight_notFresh hnot]
        exact ⟨rfl, by simp [htarget]⟩
    · rw [State.credited_here hz he, State.creditEntry, hpress]
      refine ⟨fun hfresh => ?_, fun hnot => ?_⟩
      · dsimp only
        rw [if_pos htarget, State.tickWeight_fresh hfresh hcurve]
        rfl
      · dsimp only
        rw [if_pos htarget, State.tickWeight_notFresh hnot]
        exact ⟨rfl, by simp [htarget]⟩
    · rw [State.credited_here hz he]
      refine ⟨fun hzero => if_neg (by rw [hzero]; exact Nat.lt_irrefl 0),
        fun hzero => if_neg (by rw [hzero]; exact Nat.lt_irrefl 0), fun hheat haction => ?_⟩
      have hnoHeat : (decide (0 < e.heatTarget) && (s.tickWeight e.temp e.heatCurve).isNone) = false := by
        by_cases htarget : 0 < e.heatTarget
        · rw [State.tickWeight_isNone (hheat htarget), Bool.and_false]
        · rw [decide_eq_false htarget, Bool.false_and]
      have hnoAction : (decide (0 < e.actTarget) && (s.tickWeight e.press e.actCurve).isNone) = false := by
        by_cases htarget : 0 < e.actTarget
        · rw [State.tickWeight_isNone (haction htarget), Bool.and_false]
        · rw [decide_eq_false htarget, Bool.false_and]
      show (c.gap || _ || _) = c.gap
      rw [hnoHeat, hnoAction, Bool.or_false, Bool.or_false]

end Sys2Proof.Machine
end

section
/-! The rack journal at the eyes and at the ADVANCE channel (R2, R5, R8 to R12, R15 to R18, R20): O18. -/

namespace Sys2Proof.Machine

/-! ### Tags (R8) -/

theorem tagInUse_iff (racks : List Rack) (t : Tag) : tagInUse racks t = true ↔ ∃ r ∈ racks, r.tag = t := by
  simp [tagInUse]

/-- The tags that the search passes over are in use; it stops at a free one or at the end of its tries. -/
theorem firstFreeTag_spec (racks : List Rack) (tries : Nat) (t : Tag) :
    ∃ n ≤ tries, firstFreeTag racks tries t = t + BitVec.ofNat 12 n ∧
      (∀ m < n, tagInUse racks (t + BitVec.ofNat 12 m) = true) ∧
      (tagInUse racks (t + BitVec.ofNat 12 n) = false ∨ n = tries) := by
  induction tries generalizing t with
  | zero => exact ⟨0, Nat.le_refl 0, by simp [firstFreeTag], by simp, .inr rfl⟩
  | succ tries ih =>
    unfold firstFreeTag
    split
    next hused =>
      obtain ⟨n, hn, htag, hpassed, hstop⟩ := ih (t + 1)
      have hshift (m : Nat) : t + 1 + BitVec.ofNat 12 m = t + BitVec.ofNat 12 (m + 1) := by
        rw [BitVec.ofNat_add, BitVec.add_assoc, BitVec.add_comm 1]
        rfl
      refine ⟨n + 1, Nat.succ_le_succ hn, by rw [htag, hshift], fun m hm => ?_,
        hstop.imp (by rw [hshift]; exact id) (congrArg Nat.succ)⟩
      cases m with
      | zero => simpa using hused
      | succ m => rw [← hshift]; exact hpassed m (Nat.lt_of_succ_lt_succ hm)
    next hfree => exact ⟨0, Nat.zero_le _, by simp, by simp, .inl (by simpa using hfree)⟩

/-- With fewer than 32 records the search over 32 further tags finds a free one. -/
theorem firstFreeTag_free {racks : List Rack} (hroom : racks.length < 32) (t : Tag) :
    ∃ n ≤ 32, firstFreeTag racks 32 t = t + BitVec.ofNat 12 n ∧ (∀ r ∈ racks, r.tag ≠ firstFreeTag racks 32 t) ∧
      ∀ m < n, ∃ r ∈ racks, r.tag = t + BitVec.ofNat 12 m := by
  obtain ⟨n, hn, htag, hpassed, hstop⟩ := firstFreeTag_spec racks 32 t
  have hused (m : Nat) (hm : m < n) : ∃ r ∈ racks, r.tag = t + BitVec.ofNat 12 m := (tagInUse_iff ..).mp (hpassed m hm)
  have hfree : tagInUse racks (t + BitVec.ofNat 12 n) = false := by
    refine hstop.resolve_right fun hall => ?_
    have hdistinct : ((List.range 32).map fun m => t + BitVec.ofNat 12 m).Nodup := by
      refine List.nodup_range.map_on fun a ha b hb hab => ?_
      have hnum := congrArg BitVec.toNat (add_left_cancel hab)
      rw [List.mem_range] at ha hb
      simpa [BitVec.toNat_ofNat, Nat.mod_eq_of_lt (show a < 4096 by omega), Nat.mod_eq_of_lt (show b < 4096 by omega)]
        using hnum
    have hsubset : ((List.range 32).map fun m => t + BitVec.ofNat 12 m) ⊆ racks.map (·.tag) := by
      intro x hx
      obtain ⟨m, hm, rfl⟩ := List.mem_map.mp hx
      obtain ⟨r, hr, hrt⟩ := hused m (by rw [hall]; exact List.mem_range.mp hm)
      exact List.mem_map.mpr ⟨r, hr, hrt⟩
    have hcount := (hdistinct.subperm hsubset).length_le
    simp only [List.length_map, List.length_range] at hcount
    omega
  refine ⟨n, hn, htag, fun r hr hrt => ?_, hused⟩
  rw [htag] at hrt
  rw [← Bool.not_eq_true, tagInUse_iff] at hfree
  exact hfree ⟨r, hr, hrt⟩

/-! ### Lists of records -/

theorem modify_last {α : Type} (rs : List α) (r : α) (f : α → α) : (rs ++ [r]).modify rs.length f = rs ++ [f r] := by
  induction rs with
  | nil => rfl
  | cons a rs ih => simpa using ih

theorem modify_at {α : Type} {rs : List α} {k : Nat} {r : α} (h : rs[k]? = some r) (f : α → α) :
    rs.modify k f = rs.set k (f r) := by
  refine List.ext_getElem? fun j => ?_
  rw [List.getElem?_modify, List.getElem?_set]
  by_cases hj : k = j
  · subst hj
    obtain ⟨hk, hget⟩ := List.getElem?_eq_some_iff.mp h
    simp [hk, hget]
  · simp [hj]

theorem findIdx?_first {α : Type} {rs : List α} {k : Nat} {r : α} {p : α → Bool} (h : rs[k]? = some r) (hr : p r = true)
    (hfirst : ∀ m q, m < k → rs[m]? = some q → p q = false) : rs.findIdx? p = some k := by
  obtain ⟨hk, hget⟩ := List.getElem?_eq_some_iff.mp h
  refine List.findIdx?_eq_some_iff_getElem.mpr ⟨hk, by rw [hget]; exact hr, fun j hj => ?_⟩
  rw [hfirst j _ hj (List.getElem?_eq_getElem (hj.trans hk))]
  exact Bool.false_ne_true

/-! ### Positions and their ceiling (R5) -/

section
variable (r : Rack) (travel : Travel)

theorem Rack.ceil_within (h : (travel - r.entryTravel).toNat ≤ 65535) : r.ceil travel = r :=
  if_neg (Nat.not_lt.mpr h)

theorem Rack.ceil_beyond (h : 65535 < (travel - r.entryTravel).toNat) : r.ceil travel =
    { r with entryTravel := r.entryTravel + BitVec.ofNat 24 ((travel - r.entryTravel).toNat - 65535) } := if_pos h

theorem Rack.ceil_travelled : (r.ceil travel).travelled travel = min (r.travelled travel) 65535 := by
  by_cases h : (travel - r.entryTravel).toNat ≤ 65535
  · rw [r.ceil_within travel h]
    exact (Nat.min_eq_left h).symm
  · have hexcess : (BitVec.ofNat 24 ((travel - r.entryTravel).toNat - 65535)).toNat =
        (travel - r.entryTravel).toNat - 65535 := by
      rw [BitVec.toNat_ofNat, Nat.mod_eq_of_lt (Nat.lt_of_le_of_lt (Nat.sub_le _ _) (travel - r.entryTravel).isLt)]
    rw [r.ceil_beyond travel (Nat.lt_of_not_le h), Rack.travelled, Rack.travelled, sub_add_eq_sub_sub,
      BitVec.toNat_sub_of_le (by rw [BitVec.le_def, hexcess]; exact Nat.sub_le _ _), hexcess]
    generalize (travel - r.entryTravel).toNat = d at h ⊢
    omega

theorem Rack.ceil_position : (r.ceil travel).position travel = r.position travel := by
  rw [Rack.position, r.ceil_travelled, Rack.position]
  exact Nat.min_eq_left (Nat.min_le_right _ _)

theorem Rack.ceil_kept : (r.ceil travel).state = r.state ∧ (r.ceil travel).tag = r.tag := by
  unfold Rack.ceil
  split <;> exact ⟨rfl, rfl⟩

end

end Sys2Proof.Machine
end

section
/-! Readings of the eyes and of the ADVANCE channel (R2, R9 to R12, R15 to R18, R20): O18. -/

namespace Sys2Proof.Machine

section
variable {s : State} {l : LineRecord} {i : Nat} {v : Half}

theorem State.journalReading_notOk (i : Nat) (v : Half) (s : State) : s.journalReading i v false = s := by
  unfold State.journalReading
  split <;> rfl

variable (hl : s.tables.line = some l)
include hl

theorem State.journalReading_none (hentry : i ≠ l.entryEye) (hexit : i ≠ l.exitEye) (hadvance : i ≠ l.advance) :
    s.journalReading i v true = s := by
  simp only [State.journalReading, hl, if_true, if_neg (Ne.symm hentry), if_neg (Ne.symm hexit), Ne.symm hadvance,
    false_and, if_false]

theorem State.journalReading_entry (hentry : i = l.entryEye) (hexit : i ≠ l.exitEye) (hadvance : i ≠ l.advance) :
    s.journalReading i v true = s.entryEye (decide (v ≠ 0)) := by
  simp only [State.journalReading, hl, if_true, if_pos hentry.symm, if_neg (Ne.symm hexit), Ne.symm hadvance, false_and,
    if_false]

theorem State.journalReading_exit (hexit : i = l.exitEye) (hentry : i ≠ l.entryEye) (hadvance : i ≠ l.advance) :
    s.journalReading i v true = s.exitEye (decide (v ≠ 0)) := by
  simp only [State.journalReading, hl, if_true, if_pos hexit.symm, if_neg (Ne.symm hentry), Ne.symm hadvance, false_and,
    if_false]

theorem State.journalReading_advance (hadvance : i = l.advance) (hentry : i ≠ l.entryEye) (hexit : i ≠ l.exitEye) :
    s.journalReading i v true = if s.mgmt.engine = .armed ∧ v.toNat ≤ 255 then s.advanceTravel v else s := by
  simp only [State.journalReading, hl, if_true, if_neg (Ne.symm hexit), if_neg (Ne.symm hentry), hadvance.symm, true_and]
  rfl

end

/-! ### The entry eye (R9 to R12) -/

/-- Stores the last value of the entry eye. -/
def State.sawEntry (b : Bool) (u : State) : State := u.setJournal { u.journal with entryLast := b }

/-- Stores the last value of the exit eye. -/
def State.sawExit (b : Bool) (u : State) : State := u.setJournal { u.journal with exitLast := b }

section
variable {s : State} {b : Bool}

theorem State.entryEye_same (h : b = s.journal.entryLast) : s.entryEye b = s := if_pos h

theorem State.entryEye_unarmed (h : s.mgmt.engine ≠ .armed) : s.entryEye b = s.sawEntry b := by
  have hengine : ¬ s.engine = .armed := h
  unfold State.entryEye
  simp only [hengine, if_false]
  split
  next hsame => rw [hsame]; rfl
  next => rfl

theorem State.entryEye_edge (h : s.mgmt.engine = .armed) (hedge : b ≠ s.journal.entryLast) :
    s.entryEye b = (if b then s.entryBlocked else s.entryCleared).sawEntry b := by
  have hengine : s.engine = .armed := h
  unfold State.entryEye
  simp only [if_neg hedge, hengine, if_true]
  rfl

theorem State.exitEye_same (h : b = s.journal.exitLast) : s.exitEye b = s := if_pos h

theorem State.exitEye_unarmed (h : s.mgmt.engine ≠ .armed) : s.exitEye b = s.sawExit b := by
  have hengine : ¬ s.engine = .armed := h
  unfold State.exitEye
  simp only [hengine, if_false]
  split
  next hsame => rw [hsame]; rfl
  next => rfl

theorem State.exitEye_edge (h : s.mgmt.engine = .armed) (hedge : b ≠ s.journal.exitLast) :
    s.exitEye b = (if b then s.exitBlocked else s.exitCleared).sawExit b := by
  have hengine : s.engine = .armed := h
  unfold State.exitEye
  simp only [if_neg hedge, hengine, if_true]
  rfl

end

section
variable {s : State}

theorem State.entryCleared_overflow (h : s.journal.overflow = true) :
    s.entryCleared = s.setJournal { s.journal with overflow := false } := if_pos h

theorem State.entryCleared_nothing (h : s.journal.overflow = false)
    (hnone : ∀ rs r, s.journal.racks = rs ++ [r] → r.state ≠ .entering) : s.entryCleared = s := by
  unfold State.entryCleared
  rw [h, if_neg Bool.false_ne_true]
  split
  next r _ hlast _ =>
    obtain ⟨rs, hrs⟩ := List.getLast?_eq_some_iff.mp hlast
    exact if_neg (hnone rs r hrs)
  next => rfl

theorem State.entryCleared_finishes {l : LineRecord} (hl : s.tables.line = some l) (h : s.journal.overflow = false)
    {rs : List Rack} {r : Rack} (hracks : s.journal.racks = rs ++ [r]) (hentering : r.state = .entering) :
    s.entryCleared = s.setJournal { s.journal with racks := rs ++ [r.finish s.journal.travel l.maxLength] } := by
  have hlast : s.journal.racks.getLast? = some r := by rw [hracks, List.getLast?_concat]
  have hmodify : s.journal.racks.modify (s.journal.racks.length - 1) (fun r => r.finish s.journal.travel l.maxLength) =
      rs ++ [r.finish s.journal.travel l.maxLength] := by
    rw [hracks, List.length_append]
    exact modify_last rs r _
  rw [← hmodify]
  unfold State.entryCleared
  rw [h, if_neg Bool.false_ne_true, hlast, hl]
  exact if_pos hentering

/-! ### The exit eye (R15, R16, R18) -/

theorem Journal.oldestInLine_none {j : Journal} (h : ∀ r ∈ j.racks, r.state ≠ .inLine) : j.oldestInLine = none :=
  List.findIdx?_eq_none_iff.mpr fun r hr => decide_eq_false (h r hr)

theorem Journal.oldestInLine_some {j : Journal} {k : Nat} {r : Rack} (hr : j.racks[k]? = some r) (hin : r.state = .inLine)
    (hfirst : ∀ m q, m < k → j.racks[m]? = some q → q.state ≠ .inLine) : j.oldestInLine = some k :=
  findIdx?_first hr (decide_eq_true hin) fun m q hm hq => decide_eq_false (hfirst m q hm hq)

theorem Journal.oldestAtExit_none {j : Journal} (h : ∀ r ∈ j.racks, r.state ≠ .atExit) : j.oldestAtExit = none :=
  List.findIdx?_eq_none_iff.mpr fun r hr => decide_eq_false (h r hr)

theorem Journal.oldestAtExit_some {j : Journal} {k : Nat} {r : Rack} (hr : j.racks[k]? = some r) (hat : r.state = .atExit)
    (hfirst : ∀ m q, m < k → j.racks[m]? = some q → q.state ≠ .atExit) : j.oldestAtExit = some k :=
  findIdx?_first hr (decide_eq_true hat) fun m q hm hq => decide_eq_false (hfirst m q hm hq)

theorem State.removeMissed_eq {k : Nat} {r : Rack} (h : s.journal.racks[k]? = some r) :
    s.removeMissed k = (s.removeRack k true).trackFault .missed (some r.tag) := by
  rw [State.removeMissed, h]

theorem State.exitBlocked_phantom (h : ∀ r ∈ s.journal.racks, r.state ≠ .inLine) :
    s.exitBlocked = s.trackFault .phantom none := by
  rw [State.exitBlocked, Journal.oldestInLine_none h]

/-- The exit window at the oldest IN_LINE record. -/
theorem State.exitBlocked_window {l : LineRecord} (hl : s.tables.line = some l) {k : Nat} {r : Rack}
    (hr : s.journal.racks[k]? = some r) (hin : r.state = .inLine)
    (hfirst : ∀ m q, m < k → s.journal.racks[m]? = some q → q.state ≠ .inLine) :
    s.exitBlocked =
      if r.position s.journal.travel + l.exitTol < l.exitPos then s.trackFault .phantom (some r.tag)
      else if r.position s.journal.travel ≤ l.exitPos + l.exitTol then
        s.setJournal { s.journal with racks := s.journal.racks.set k { r with state := .atExit } }
      else (s.removeRack k true).trackFault .missed (some r.tag) := by
  have hmodify := modify_at hr fun r => { r with state := .atExit }
  simp only [State.exitBlocked, Journal.oldestInLine_some hr hin hfirst, hl, hr, hmodify, State.removeMissed_eq hr]

theorem State.exitCleared_none (h : ∀ r ∈ s.journal.racks, r.state ≠ .atExit) : s.exitCleared = s := by
  rw [State.exitCleared, Journal.oldestAtExit_none h]

theorem State.exitCleared_some {k : Nat} {r : Rack} (hr : s.journal.racks[k]? = some r) (hat : r.state = .atExit)
    (hfirst : ∀ m q, m < k → s.journal.racks[m]? = some q → q.state ≠ .atExit) : s.exitCleared = s.removeRack k false := by
  rw [State.exitCleared, Journal.oldestAtExit_some hr hat hfirst]

/-! ### The ADVANCE channel (R2, R5, R20) -/

/-- The journal after an ADVANCE update, before a missed exit. -/
def State.moved (v : Half) (s : State) : State :=
  s.setJournal { s.journal with
    travel := s.journal.travel + v.setWidth 24
    racks := s.journal.racks.map fun r => r.ceil (s.journal.travel + v.setWidth 24) }

theorem State.advanceTravel_none (v : Half) (h : ∀ r ∈ s.journal.racks, r.state ≠ .inLine) :
    s.advanceTravel v = s.moved v := by
  have hnone : (s.moved v).journal.oldestInLine = none := by
    refine Journal.oldestInLine_none fun q hq => ?_
    obtain ⟨r, hr, rfl⟩ := List.mem_map.mp hq
    rw [(r.ceil_kept _).1]
    exact h r hr
  show (match (s.moved v).journal.oldestInLine, (s.moved v).tables.line with
    | some k, some l => _
    | _, _ => s.moved v) = s.moved v
  rw [hnone]

theorem State.advanceTravel_oldest {l : LineRecord} (hl : s.tables.line = some l) (v : Half) {k : Nat} {r : Rack}
    (hr : s.journal.racks[k]? = some r) (hin : r.state = .inLine)
    (hfirst : ∀ m q, m < k → s.journal.racks[m]? = some q → q.state ≠ .inLine) :
    s.advanceTravel v =
      if l.exitPos + l.exitTol < r.position (s.journal.travel + v.setWidth 24) then
        ((s.moved v).removeRack k true).trackFault .missed (some r.tag)
      else s.moved v := by
  have hheld : (s.moved v).journal.racks[k]? = some (r.ceil (s.journal.travel + v.setWidth 24)) := by
    show (s.journal.racks.map _)[k]? = _
    rw [List.getElem?_map, hr]
    rfl
  have holdest : (s.moved v).journal.oldestInLine = some k := by
    refine Journal.oldestInLine_some hheld (((r.ceil_kept _).1).trans hin) fun m q hm hq => ?_
    have hq' : (s.journal.racks.map fun r => r.ceil (s.journal.travel + v.setWidth 24))[m]? = some q := hq
    rw [List.getElem?_map] at hq'
    obtain ⟨p, hp, rfl⟩ := Option.map_eq_some_iff.mp hq'
    rw [(p.ceil_kept _).1]
    exact hfirst m p hm hp
  have hline : (s.moved v).tables.line = some l := hl
  have hunfold : s.advanceTravel v = match (s.moved v).journal.oldestInLine, (s.moved v).tables.line with
    | some k, some l =>
      match (s.moved v).journal.racks[k]? with
      | some r => if l.exitPos + l.exitTol < r.position (s.journal.travel + v.setWidth 24) then (s.moved v).removeMissed k
        else s.moved v
      | none => s.moved v
    | _, _ => s.moved v := rfl
  rw [hunfold, holdest, hline]
  dsimp only
  rw [hheld]
  dsimp only
  rw [Rack.ceil_position, State.removeMissed_eq hheld, (r.ceil_kept _).2]

/-- No IN_LINE record beyond the window: the travel and the ceiling alone. -/
theorem State.advanceTravel_within {l : LineRecord} (hl : s.tables.line = some l) (v : Half)
    (h : ∀ r ∈ s.journal.racks, r.state = .inLine →
      r.position (s.journal.travel + v.setWidth 24) ≤ l.exitPos + l.exitTol) : s.advanceTravel v = s.moved v := by
  cases holdest : s.journal.racks.findIdx? fun r => r.state = .inLine with
  | none =>
    exact State.advanceTravel_none v fun r hr => of_decide_eq_false (List.findIdx?_eq_none_iff.mp holdest r hr)
  | some k =>
    obtain ⟨hk, hin, hfirst⟩ := List.findIdx?_eq_some_iff_getElem.mp holdest
    have hstate : s.journal.racks[k].state = .inLine := of_decide_eq_true hin
    rw [State.advanceTravel_oldest hl v (List.getElem?_eq_getElem hk) hstate fun m q hm hq => ?_]
    · exact if_neg (Nat.not_lt.mpr (h _ (List.getElem_mem hk) hstate))
    · obtain ⟨hlt, rfl⟩ := List.getElem?_eq_some_iff.mp hq
      simpa using hfirst m hm

end

/-- Settles O18: eye by eye, edge by edge, and the ADVANCE update. -/
theorem journalFollowsEyesAndAdvance : Obligations.JournalFollowsEyesAndAdvance := by
  intro s l i v hl j entry exit
  refine ⟨s.journalReading_notOk i v, State.journalReading_none hl, fun hentry hexit hadvance => ?_,
    fun hexit hentry hadvance => ?_, fun hadvance hentry hexit => ?_⟩
  · rw [State.journalReading_entry hl hentry hexit hadvance]
    have hedge (harmed : s.mgmt.engine = .armed) {b : Bool} (hb : decide (v ≠ 0) = b) (hlast : j.entryLast = !b) :
        s.entryEye (decide (v ≠ 0)) = entry b (if b then s.entryBlocked else s.entryCleared) := by
      rw [hb]
      exact State.entryEye_edge harmed (by rw [show s.journal.entryLast = _ from hlast]; cases b <;> decide)
    refine ⟨State.entryEye_unarmed, fun _ hsame => State.entryEye_same hsame, fun harmed hv hlast hroom => ?_,
      fun harmed hv hlast hfull => ?_, fun harmed hv hlast hover => ?_, fun harmed hv hlast hover hnone => ?_,
      fun rs r harmed hv hlast hover hracks hentering => ?_⟩
    · obtain ⟨n, hn, htag, hfree, hused⟩ := firstFreeTag_free hroom j.nextTag
      refine ⟨n, _, hn, htag, hfree, hused, ?_⟩
      rw [hedge harmed (decide_eq_true hv) hlast, if_pos rfl, State.entryBlocked, if_pos hroom]
      rfl
    · rw [hedge harmed (decide_eq_true hv) hlast, if_pos rfl, State.entryBlocked, if_neg (Nat.not_lt.mpr hfull)]
    · rw [hedge harmed (decide_eq_false (not_not.mpr hv)) hlast, if_neg Bool.false_ne_true,
        State.entryCleared_overflow hover]
    · rw [hedge harmed (decide_eq_false (not_not.mpr hv)) hlast, if_neg Bool.false_ne_true,
        State.entryCleared_nothing hover hnone]
    · rw [hedge harmed (decide_eq_false (not_not.mpr hv)) hlast, if_neg Bool.false_ne_true,
        State.entryCleared_finishes hl hover hracks hentering]
      rfl
  · rw [State.journalReading_exit hl hexit hentry hadvance]
    have hedge (harmed : s.mgmt.engine = .armed) {b : Bool} (hb : decide (v ≠ 0) = b) (hlast : j.exitLast = !b) :
        s.exitEye (decide (v ≠ 0)) = exit b (if b then s.exitBlocked else s.exitCleared) := by
      rw [hb]
      exact State.exitEye_edge harmed (by rw [show s.journal.exitLast = _ from hlast]; cases b <;> decide)
    refine ⟨State.exitEye_unarmed, fun _ hsame => State.exitEye_same hsame, fun harmed hv hlast hnone => ?_,
      fun k r harmed hv hlast hr hin hfirst => ?_, fun harmed hv hlast hnone => ?_,
      fun k r harmed hv hlast hr hat hfirst => ?_⟩
    · rw [hedge harmed (decide_eq_true hv) hlast, if_pos rfl, State.exitBlocked_phantom hnone]
    · rw [hedge harmed (decide_eq_true hv) hlast, if_pos rfl, State.exitBlocked_window hl hr hin hfirst]
      refine ⟨fun hbefore => ?_, fun hfrom hto => ?_, fun hbeyond => ?_⟩
      · rw [if_pos hbefore]
      · rw [if_neg (Nat.not_lt.mpr hfrom), if_pos hto]
      · have hpast : l.exitPos + l.exitTol < r.position s.journal.travel := hbeyond
        rw [if_neg (by omega), if_neg (Nat.not_le.mpr hpast)]
    · rw [hedge harmed (decide_eq_false (not_not.mpr hv)) hlast, if_neg Bool.false_ne_true, State.exitCleared_none hnone]
    · rw [hedge harmed (decide_eq_false (not_not.mpr hv)) hlast, if_neg Bool.false_ne_true,
        State.exitCleared_some hr hat hfirst]
  · intro travel
    rw [State.journalReading_advance hl hadvance hentry hexit]
    refine ⟨fun h => if_neg fun k => ?_, fun r _ => ⟨r.ceil_within travel, r.ceil_beyond travel, r.ceil_travelled travel,
      r.ceil_position travel⟩, fun harmed hv hwithin => ?_, fun k r harmed hv hr hin hfirst => ?_⟩
    · exact h.elim (· k.1) (Nat.not_lt.mpr k.2)
    · rw [if_pos ⟨harmed, hv⟩]
      exact State.advanceTravel_within hl v hwithin
    · rw [if_pos ⟨harmed, hv⟩, State.advanceTravel_oldest hl v hr hin hfirst]
      exact ⟨fun hwithin => if_neg (Nat.not_lt.mpr hwithin), fun hbeyond => if_pos hbeyond⟩

end Sys2Proof.Machine
end

section
/-! The tables' bytes read back as they were committed (R161, R165): O13. -/

namespace Sys2Proof.Machine

/-! ### Fields -/

theorem byte_toNat (b : Byte) : byte b.toNat = b := by
  rw [byte, BitVec.ofNat_toNat, BitVec.setWidth_eq]

theorem word_toNat (v : Half) : word v.toNat = v := by
  rw [word, BitVec.ofNat_toNat, BitVec.setWidth_eq]

theorem hiByte_half (hi lo : Byte) : hiByte (half hi lo) = hi := by
  unfold hiByte half
  ext i hi
  simp
  grind

theorem loByte_half (hi lo : Byte) : loByte (half hi lo) = lo := by
  unfold loByte half
  ext i hi
  simp
  grind

theorem bytes2_half (hi lo : Byte) : bytes2 (half hi lo) = [hi, lo] := by
  rw [bytes2, hiByte_half, loByte_half]

theorem bytes2_word_half (hi lo : Byte) : bytes2 (word (half hi lo).toNat) = [hi, lo] := by
  rw [word_toNat, bytes2_half]

theorem signedHalf_toInt (v : Half) : signedHalf v.toInt = v := BitVec.ofInt_toInt

theorem optByte_of_parseRef {b : Byte} {r : Option Nat} (h : parseRef b = some r) : optByte r = b := by
  unfold parseRef at h
  split at h
  next hnone => cases h; exact hnone.symm
  next =>
    split at h
    · cases h; exact byte_toNat b
    · cases h

theorem optByte_of_parseZoneRef {b : Byte} {r : Option Nat} (h : parseZoneRef b = some r) : optByte r = b := by
  unfold parseZoneRef at h
  split at h
  next hnone => cases h; exact hnone.symm
  next =>
    split at h
    · cases h; exact byte_toNat b
    · cases h

theorem optByte_of_parseCell {b : Byte} {r : Option Nat} (h : parseCell b = some r) : optByte r = b := by
  unfold parseCell at h
  split at h
  next hnone => cases h; exact hnone.symm
  next =>
    split at h
    · cases h; exact byte_toNat b
    · cases h

theorem optByte_of_parseFail {b : Byte} {r : Option Nat} (h : parseFail b = some r) : optByte r = b := by
  unfold parseFail at h
  split at h
  next hnone => cases h; exact hnone.symm
  next =>
    split at h
    · cases h; exact byte_toNat b
    · cases h

theorem RouteKind.byte_code {b : Byte} {k : RouteKind} (h : RouteKind.ofCode b.toNat = some k) : byte k.code = b := by
  have hcode : k.code = b.toNat := by
    unfold RouteKind.ofCode at h
    split at h <;> simp_all <;> subst h <;> rfl
  rw [hcode, byte_toNat]

theorem ZoneKind.byte_code {b : Byte} {k : ZoneKind} (h : ZoneKind.ofCode b.toNat = some k) : byte k.code = b := by
  have hcode : k.code = b.toNat := by
    unfold ZoneKind.ofCode at h
    split at h <;> simp_all <;> subst h <;> rfl
  rw [hcode, byte_toNat]

theorem SigTest.byte_code {b : Byte} {k : SigTest} (h : SigTest.ofCode b.toNat = some k) : byte k.code = b := by
  have hcode : k.code = b.toNat := by
    unfold SigTest.ofCode at h
    split at h <;> simp_all <;> subst h <;> rfl
  rw [hcode, byte_toNat]

theorem StepKind.byte_code {b : Byte} {k : StepKind} (h : StepKind.ofCode b.toNat = some k) : byte k.code = b := by
  have hcode : k.code = b.toNat := by
    unfold StepKind.ofCode at h
    split at h <;> simp_all <;> subst h <;> rfl
  rw [hcode, byte_toNat]

theorem rateByte_fields : ∀ b : Byte, rateByte (rateOf b) (offsetOf b) = b := by
  unfold Byte
  decide

theorem encodeGate_parseGate : ∀ b : Byte, encodeGate (parseGate b) = b := by
  unfold Byte
  decide

theorem classByte_fields : ∀ b : Byte,
    b.extractLsb' 2 6 ++ BitVec.ofBool (b.getLsbD 1) ++ BitVec.ofBool (b.getLsbD 0) = b := by
  unfold Byte
  decide

/-! ### Breakpoints -/

theorem parsePoints_spec {n : Nat} {d : List Byte} (h : d.length = 3 * n) :
    (parsePoints d).length = n ∧ encodePoints (parsePoints d) = d := by
  induction n generalizing d with
  | zero =>
    obtain rfl := List.length_eq_zero_iff.mp h
    exact ⟨rfl, rfl⟩
  | succ n ih =>
    match d, h with
    | xh :: xl :: w :: rest, h =>
      obtain ⟨hlen, hbytes⟩ := ih (d := rest) (by simp only [List.length_cons] at h; omega)
      refine ⟨congrArg Nat.succ hlen, ?_⟩
      rw [parsePoints, encodePoints, bytes2_word_half, byte_toNat, hbytes]
      rfl

theorem parseCurve_some {count : Byte} {pts : List Breakpoint} {e : CurveEntry} (h : parseCurve count pts = some e) :
    byte e.count = count ∧ e.points = pts := by
  unfold parseCurve at h
  dsimp only at h
  split at h
  · cases h
    exact ⟨byte_toNat count, rfl⟩
  · cases h

/-- The halves of a curve whose points come from two runs of bytes, four in the first. -/
theorem encodeCurve_halves {count : Byte} {body : List Byte} {last : List Breakpoint} {e : CurveEntry}
    (hbody : body.length = 12) (h : parseCurve count (parsePoints body ++ last) = some e) :
    encodeCurveFirst e = count :: body ∧ encodeCurveLast e = encodePoints last := by
  obtain ⟨hcount, hpoints⟩ := parseCurve_some h
  obtain ⟨hlen, hbytes⟩ := parsePoints_spec (n := 4) hbody
  rw [encodeCurveFirst, encodeCurveLast, hcount, hpoints, List.take_left' hlen, List.drop_left' hlen, hbytes]
  exact ⟨rfl, rfl⟩

theorem cons_of_length {d : List Byte} {n : Nat} (h : d.length = n + 1) :
    d = d.getD 0 0 :: d.drop 1 ∧ (d.drop 1).length = n := by
  cases d with
  | nil => cases h
  | cons b d => exact ⟨rfl, Nat.succ.inj h⟩

/-! ### Entries -/

theorem encodeLine_of_parse {d : List Byte} {e : LineRecord} (h : parseLine d = some e) : encodeLine e = d := by
  unfold parseLine at h
  split at h
  next =>
    split at h
    next hco hind =>
      dsimp only at h
      split at h
      · cases h
        simp only [encodeLine, byte_toNat, optByte_of_parseRef hco, optByte_of_parseRef hind, word_toNat, hiByte_half,
          loByte_half]
      · cases h
    next => cases h
  next => cases h

theorem encodeRoute_of_parse {d : List Byte} {e : RouteEntry} (h : parseRoute d = some e) : encodeRoute e = d := by
  unfold parseRoute at h
  split at h
  next =>
    split at h
    next hkind hzone =>
      split at h
      · cases h
        simp only [encodeRoute, byte_toNat, RouteKind.byte_code hkind, optByte_of_parseZoneRef hzone]
      · cases h
    next => cases h
  next => cases h

theorem encodeZone_of_parse {d₁ d₂ : List Byte} {e : ZoneEntry} (h : parseZone d₁ d₂ = some e) :
    encodeZoneFirst e = d₁ ∧ encodeZoneLast e = d₂ := by
  unfold parseZone at h
  split at h
  next =>
    split at h
    next hkind hte hpr hlv hhe hpu hinl hdr =>
      dsimp only at h
      split at h
      · cases h
        simp only [encodeZoneFirst, encodeZoneLast, byte_toNat, ZoneKind.byte_code hkind, optByte_of_parseRef hte,
          optByte_of_parseRef hpr, optByte_of_parseRef hlv, optByte_of_parseRef hhe, optByte_of_parseRef hpu,
          optByte_of_parseRef hinl, optByte_of_parseRef hdr, bytes2_word_half, rateByte_fields]
        exact ⟨rfl, rfl⟩
      · cases h
    next => cases h
  next => cases h

theorem encodeSignature_of_parse {d : List Byte} {e : SigEntry} (h : parseSignature d = some e) :
    encodeSignature e = d := by
  unfold parseSignature at h
  split at h
  next =>
    split at h
    next htest hb hz =>
      dsimp only at h
      split at h
      · cases h
        simp only [encodeSignature, byte_toNat, SigTest.byte_code htest, optByte_of_parseRef hb,
          optByte_of_parseZoneRef hz, signedHalf_toInt, bytes2_half, bytes2_word_half, encodeGate_parseGate]
        rfl
      · cases h
    next => cases h
  next => cases h

theorem encodeClass_of_parse {d : List Byte} {e : ClassEntry} (h : parseClass d = some e) : encodeClass e = d := by
  unfold parseClass at h
  split at h
  next b =>
    cases h
    exact congrArg (· :: []) (classByte_fields b)
  next => cases h

theorem encodeSelect_of_parse {d : List Byte} {e : SelectRow} (h : parseSelect d = some e) : encodeSelect e = d := by
  unfold parseSelect at h
  split at h
  next =>
    split at h
    next ha hb hc hd he hf =>
      cases h
      simp only [encodeSelect, optByte_of_parseCell ha, optByte_of_parseCell hb, optByte_of_parseCell hc,
        optByte_of_parseCell hd, optByte_of_parseCell he, optByte_of_parseCell hf]
    next => cases h
  next => cases h

theorem encodePlanSlot_of_parse {d : List Byte} {e : PlanSlot} (h : parsePlanSlot d = some e) :
    encodePlanSlot (d.getD 0 0).toNat e = d := by
  unfold parsePlanSlot at h
  split at h
  next =>
    split at h
    next hkind hfail =>
      split at h
      · cases h
        simp only [encodePlanSlot, List.getD_cons_zero, byte_toNat, StepKind.byte_code hkind, bytes2_half,
          optByte_of_parseFail hfail]
        rfl
      · cases h
    next => cases h
  next => cases h

/-- Settles O13: table by table, field by field. -/
theorem entriesReadBackAsCommitted : Obligations.EntriesReadBackAsCommitted := by
  refine ⟨fun _ _ => encodeLine_of_parse, fun _ _ => encodeRoute_of_parse, fun _ _ _ => encodeZone_of_parse,
    fun d e hlen h => ?_, fun d₁ d₂ e hlen₁ hlen₂ h => ?_, fun _ _ => encodeSignature_of_parse,
    fun _ _ => encodeClass_of_parse, fun _ _ => encodeSelect_of_parse, fun _ _ => encodePlanSlot_of_parse⟩
  · obtain ⟨hd, hbody⟩ := cons_of_length hlen
    unfold parseCurveSingle at h
    split at h
    · obtain ⟨hfirst, hlast⟩ := encodeCurve_halves hbody h
      exact ⟨hfirst.trans hd.symm, hlast.trans (by decide)⟩
    · cases h
  · obtain ⟨hd, hbody⟩ := cons_of_length hlen₁
    obtain ⟨hfirst, hlast⟩ := encodeCurve_halves hbody h
    exact ⟨hfirst.trans hd.symm, hlast.trans (parsePoints_spec (n := 4) hlen₂).2⟩

end Sys2Proof.Machine
end

section
/-! The watch polls (R175, R176): O57. -/

namespace Sys2Proof.Machine

/-- The state after watch polls of the given channels have been appended, each with the engine's next SEQ. -/
def State.watchPolled (polled : List (Nat × RouteEntry)) (s : State) : State :=
  { s with
    arbiter := { s.arbiter with
      queue := s.arbiter.queue ++ polled.mapIdx fun k e =>
        { frame := { dst := e.2.node, src := 62, kind := Kind.poll, flags := { engine := true },
                     seq := s.ports.engineSeq + BitVec.ofNat 8 k, payload := [e.2.chan] },
          origin := .watch e.1 } }
    ports := { s.ports with engineSeq := s.ports.engineSeq + BitVec.ofNat 8 polled.length } }

theorem State.watchPolled_nil (s : State) : s.watchPolled [] = s := by
  simp [State.watchPolled]

theorem State.watchPolled_queue_length (polled : List (Nat × RouteEntry)) (s : State) :
    (s.watchPolled polled).arbiter.queue.length = s.arbiter.queue.length + polled.length := by
  simp [State.watchPolled]

theorem State.watchPolled_watchQueued (polled : List (Nat × RouteEntry)) (s : State) {i : Nat}
    (hother : ∀ e ∈ polled, e.1 ≠ i) :
    (s.watchPolled polled).watchQueued i = false ↔ ∀ q ∈ s.arbiter.queue, q.origin ≠ .watch i := by
  simp only [State.watchQueued, State.watchPolled, List.any_eq_false, decide_eq_true_eq, List.mem_append, or_imp,
    forall_and]
  refine and_iff_left_of_imp fun _ q hq => ?_
  obtain ⟨k, hk, rfl⟩ := List.mem_mapIdx.mp hq
  simpa using hother _ (List.getElem_mem hk)

/-- One more poll. -/
theorem State.appendPoll_watchPolled {s : State} {i : Nat} {r : RouteEntry} (hr : s.routeAt i = some r)
    (polled : List (Nat × RouteEntry)) :
    (s.watchPolled polled).appendPoll i (.watch i) = s.watchPolled (polled ++ [(i, r)]) := by
  have hroute : (s.watchPolled polled).routeAt i = some r := hr
  have hseq : s.ports.engineSeq + BitVec.ofNat 8 polled.length + 1 =
      s.ports.engineSeq + BitVec.ofNat 8 (polled ++ [(i, r)]).length := by
    rw [List.length_append, BitVec.ofNat_add, ← BitVec.add_assoc]
    rfl
  unfold State.appendPoll
  rw [hroute]
  simp only [State.watchPolled, State.appendFrame, State.setQueue, State.bumpSeq, State.engineFrame, List.mapIdx_concat,
    ← hseq, List.append_assoc]

section
variable {s : State}

theorem State.isSensor_iff (s : State) (i : Nat) : s.isSensor i = true ↔ ∃ r, s.routeAt i = some r ∧ r.kind.isSensor = true := by
  unfold State.isSensor
  cases s.routeAt i <;> simp

/-- A watched channel (R175). -/
theorem State.watched_iff (s : State) (i : Nat) : s.watched i = true ↔
    (∃ r, s.routeAt i = some r ∧ r.kind.isSensor = true) ∧
      ∃ g e, g < 48 ∧ s.sigAt g = some e ∧ (s.classAt e.cls).watch = true ∧
        (e.chA = i ∨ (e.test = .diffAbove ∧ e.chB = some i)) := by
  rw [State.watched, Bool.and_eq_true, s.isSensor_iff]
  refine and_congr_right fun _ => ?_
  simp only [List.any_eq_true, List.mem_range]
  constructor
  · rintro ⟨g, hg, hmatch⟩
    split at hmatch
    next e he =>
      simp only [Bool.and_eq_true, Bool.or_eq_true, decide_eq_true_eq] at hmatch
      exact ⟨g, e, hg, he, hmatch.1, hmatch.2⟩
    next => cases hmatch
  · rintro ⟨g, e, hg, he, hwatch, hch⟩
    refine ⟨g, hg, ?_⟩
    rw [he]
    simpa [hwatch] using hch

/-- The channels that a watch round polls among the first `n` indexes. -/
structure WatchRound (s : State) (n : Nat) (polled : List (Nat × RouteEntry)) : Prop where
  ascending : polled.Pairwise fun a b => a.1 < b.1
  entries   : ∀ e ∈ polled, e.1 < n ∧ s.routeAt e.1 = some e.2
  exactly   : ∀ i, i < n → ((∃ r, (i, r) ∈ polled) ↔ (s.watched i = true ∧ (∀ q ∈ s.arbiter.queue, q.origin ≠ .watch i) ∧
                s.arbiter.queue.length + polled.countP (fun e => decide (e.1 < i)) < 8))

theorem WatchRound.countP {s : State} {n : Nat} {polled : List (Nat × RouteEntry)} (h : WatchRound s n polled) :
    polled.countP (fun e => decide (e.1 < n)) = polled.length :=
  List.countP_eq_length.mpr fun e he => decide_eq_true (h.entries e he).1

/-- The round goes on with a channel that is not polled. -/
theorem WatchRound.skip {n : Nat} {polled : List (Nat × RouteEntry)} (h : WatchRound s n polled)
    (hnot : ¬ (s.watched n = true ∧ (∀ q ∈ s.arbiter.queue, q.origin ≠ .watch n) ∧
      s.arbiter.queue.length + polled.length < 8)) : WatchRound s (n + 1) polled where
  ascending := h.ascending
  entries e he := ⟨Nat.lt_succ_of_lt (h.entries e he).1, (h.entries e he).2⟩
  exactly i hi := by
    rcases Nat.lt_succ_iff_lt_or_eq.mp hi with hlt | rfl
    · exact h.exactly i hlt
    · rw [h.countP]
      refine iff_of_false ?_ hnot
      rintro ⟨r, hr⟩
      exact Nat.lt_irrefl _ (h.entries _ hr).1

/-- The round goes on with a channel that is polled. -/
theorem WatchRound.poll {n : Nat} {polled : List (Nat × RouteEntry)} (h : WatchRound s n polled) {r : RouteEntry}
    (hr : s.routeAt n = some r) (hoffer : s.watched n = true ∧ (∀ q ∈ s.arbiter.queue, q.origin ≠ .watch n) ∧
      s.arbiter.queue.length + polled.length < 8) : WatchRound s (n + 1) (polled ++ [(n, r)]) where
  ascending := List.pairwise_append.mpr ⟨h.ascending, List.pairwise_singleton _ _, fun a ha b hb => by
    rw [List.mem_singleton.mp hb]
    exact (h.entries a ha).1⟩
  entries e he := by
    rcases List.mem_append.mp he with he | he
    · exact ⟨Nat.lt_succ_of_lt (h.entries e he).1, (h.entries e he).2⟩
    · rw [List.mem_singleton.mp he]
      exact ⟨Nat.lt_succ_self n, hr⟩
  exactly i hi := by
    have hcount : (polled ++ [(n, r)]).countP (fun e => decide (e.1 < i)) = polled.countP fun e => decide (e.1 < i) := by
      rw [List.countP_append, List.countP_singleton, if_neg (by simpa using Nat.le_of_lt_succ hi), Nat.add_zero]
    rw [hcount]
    rcases Nat.lt_succ_iff_lt_or_eq.mp hi with hlt | rfl
    · rw [← h.exactly i hlt]
      have hne : ∀ q, (i, q) ≠ (n, r) := fun q hq => Nat.ne_of_lt hlt (congrArg Prod.fst hq)
      simp only [List.mem_append, List.mem_singleton, hne, or_false]
    · rw [h.countP]
      exact iff_of_true ⟨r, List.mem_append_right _ (List.mem_singleton_self _)⟩ hoffer

theorem offerWatchPolls (s : State) (n : Nat) : ∃ polled, WatchRound s n polled ∧
    (List.range n).foldl (fun u i => u.offerWatchPoll i) s = s.watchPolled polled := by
  induction n with
  | zero =>
    exact ⟨[], ⟨List.Pairwise.nil, by simp, by simp⟩, s.watchPolled_nil.symm⟩
  | succ n ih =>
    obtain ⟨polled, hround, hfold⟩ := ih
    rw [List.range_succ, List.foldl_append, hfold]
    have hwatched : (s.watchPolled polled).watched n = s.watched n := rfl
    have hoffer : ((s.watchPolled polled).watched n = true ∧ (s.watchPolled polled).arbiter.queue.length < Config.pollLimit ∧
        (s.watchPolled polled).watchQueued n = false) ↔
        (s.watched n = true ∧ (∀ q ∈ s.arbiter.queue, q.origin ≠ .watch n) ∧
          s.arbiter.queue.length + polled.length < 8) := by
      rw [hwatched, s.watchPolled_queue_length, s.watchPolled_watchQueued polled fun e he =>
        Nat.ne_of_lt (hround.entries e he).1]
      exact and_congr_right fun _ => and_comm
    by_cases h : s.watched n = true ∧ (∀ q ∈ s.arbiter.queue, q.origin ≠ .watch n) ∧
        s.arbiter.queue.length + polled.length < 8
    · obtain ⟨⟨r, hr, _⟩, _⟩ := (s.watched_iff n).mp h.1
      refine ⟨polled ++ [(n, r)], hround.poll hr h, ?_⟩
      rw [List.foldl_cons, List.foldl_nil, State.offerWatchPoll, if_pos (hoffer.mpr h), State.appendPoll_watchPolled hr]
    · refine ⟨polled, hround.skip h, ?_⟩
      rw [List.foldl_cons, List.foldl_nil, State.offerWatchPoll, if_neg (mt hoffer.mp h)]

end

/-- Settles O57: channel after channel, with room left by those before it. -/
theorem watchIntervalOffersPolls : Obligations.WatchIntervalOffersPolls := by
  refine ⟨fun s h => congrArg Host.Outcome.next (if_neg ?_), fun s l hwatch hdue hl => ⟨s.watched_iff, ?_⟩⟩
  · rintro ⟨hwatch, hdue⟩
    rcases h with h | h
    · exact h hwatch
    · rw [State.now, h] at hdue
      cases hdue
  · have hnext : s.nextWatch = some (s.time.clock + BitVec.ofNat 32 (100 * l.watchInterval)) := by
      rw [State.nextWatch, hl]
      rfl
    obtain ⟨polled, hround, hfold⟩ := offerWatchPolls (s.setWatch s.nextWatch) 64
    have hexec : exec .watchInterval s = .next ((s.setWatch s.nextWatch).watchPolled polled) := by
      rw [← hfold]
      exact congrArg Host.Outcome.next (if_pos ⟨hwatch, hdue⟩)
    refine ⟨polled, ?_, hround.ascending, hround.entries, fun i hi => ?_⟩
    · rw [hexec, hnext]
      rfl
    · rw [hround.exactly i hi]
      exact and_congr (s.watched_iff i) Iff.rfl

end Sys2Proof.Machine
end

section
/-! The age check (R50 to R53): O56. -/

namespace Sys2Proof.Machine

theorem staleDue_iff (r : RouteEntry) (c : ImageCell) (now : Clock) : staleDue r c now = true ↔
    c.status = .fresh ∧ 1 ≤ r.stale ∧ r.stale ≤ 255 ∧ ∃ t, c.lastReading = some t ∧ r.stale * 10 < (now - t).toNat := by
  unfold staleDue ImageCell.age
  cases c.lastReading <;> simp [and_assoc]

theorem keepFreshDue_iff (r : RouteEntry) (c : ImageCell) (now : Clock) : keepFreshDue r c now = true ↔
    1 ≤ r.keepFresh ∧ r.keepFresh ≤ 255 ∧ c.keepPending = false ∧
      (c.pollRef = none ∨ ∃ t, c.pollRef = some t ∧ r.keepFresh * 10 ≤ (now - t).toNat) := by
  unfold keepFreshDue
  cases c.pollRef <;> simp [and_assoc]

theorem State.modImage_self {i : Nat} {s : State} {f : ImageCell → ImageCell} (h : f (s.imageAt i) = s.imageAt i) :
    s.modImage i f = s := by
  have hsame : s.image.setIfInBounds i (s.imageAt i) = s.image := by
    apply Vector.ext
    intro k hk
    rw [Vector.getElem_setIfInBounds]
    split
    next heq => subst heq; simp [State.imageAt, hk]
    next => rfl
  rw [State.modImage, h, hsame]

/-! ### One signature of test STALE -/

section
variable {s : State} {g i : Nat} {e : SigEntry}

theorem State.evalStale_absent (h : s.sigAt g = none) : s.evalStale g i = s := by
  unfold State.evalStale
  rw [h]

theorem State.evalStale_skipped (hsig : s.sigAt g = some e) (h : e.test ≠ .stale ∨ e.chA ≠ i ∨ s.evaluates e = false) :
    s.evalStale g i = s := by
  unfold State.evalStale
  rw [hsig]
  refine if_neg ?_
  rintro ⟨htest, hch, heval⟩
  rcases h with h | h | h
  · exact h htest
  · exact h hch
  · rw [h] at heval
    cases heval

/-- The signature is evaluated: a MATCH where its gates hold, and else nothing that changes its run state. -/
theorem State.evalStale_taken (hsig : s.sigAt g = some e) (htest : e.test = .stale) (heval : s.evaluates e = true) :
    s.evalStale g e.chA =
      s.settleSignature g e (if s.gatesHold e then decided true 0 else undecided) (s.runAt g).anchor := by
  unfold State.evalStale
  rw [hsig]
  exact if_pos ⟨htest, rfl, heval⟩

theorem State.evalStale_ungated (hsig : s.sigAt g = some e) (hgates : s.gatesHold e = false) : s.evalStale g i = s := by
  by_cases h : e.test = .stale ∧ e.chA = i ∧ s.evaluates e = true
  · obtain ⟨htest, rfl, heval⟩ := h
    rw [State.evalStale_taken hsig htest heval, hgates]
    exact s.settleSignature_unchanged g e
  · rw [not_and_or, not_and_or, Bool.not_eq_true] at h
    exact State.evalStale_skipped hsig h

theorem State.monitorStale_unarmed (h : s.mgmt.engine = .config ∨ s.mgmt.engine = .checking) (i : Nat) :
    s.monitorStale i = s := by
  have hskip (g : Nat) : s.evalStale g i = s := by
    cases hsig : s.sigAt g with
    | none => exact State.evalStale_absent hsig
    | some e =>
      exact State.evalStale_skipped hsig (.inr (.inr (State.evaluates_eq_false (h.imp_right Or.inl))))
  unfold State.monitorStale
  induction List.range Config.signatures with
  | nil => rfl
  | cons g gs ih => rw [List.foldl_cons, hskip, ih]

end

/-! ### One entry -/

section
variable {s : State} {e : Engine} {i : Nat} {r : RouteEntry}

theorem State.ageEntry_other (h : ∀ r, s.routeAt i = some r → r.kind.isSensor = false) : s.ageEntry e i = s := by
  unfold State.ageEntry
  cases hr : s.routeAt i with
  | none => rfl
  | some r =>
    dsimp only
    rw [h r hr]
    rfl

theorem State.staleTest_due (h : staleDue r (s.imageAt i) s.now = true) :
    s.staleTest i r = (s.modImage i fun c => { c with status := .stale }).monitorStale i := if_pos h

theorem State.staleTest_young (h : ¬ staleDue r (s.imageAt i) s.now = true) : s.staleTest i r = s := if_neg h

variable (hr : s.routeAt i = some r) (hkind : r.kind.isSensor = true)
include hr hkind

theorem State.ageEntry_unwatched (he : e = .watch) (hw : s.watched i = false) : s.ageEntry e i = s := by
  subst he
  unfold State.ageEntry
  rw [hr]
  simp [hkind, hw]

theorem State.ageEntry_unarmed (he : e ≠ .armed) (hw : e = .watch → s.watched i = true) :
    s.ageEntry e i = s.staleTest i r := by
  have htaken : e ≠ .watch ∨ s.watched i = true := by
    by_cases h : e = .watch
    · exact .inr (hw h)
    · exact .inl h
  unfold State.ageEntry
  rw [hr]
  simp [hkind, he, htaken]

theorem State.ageEntry_armed : s.ageEntry .armed i = (s.staleTest i r).keepFreshTest i r := by
  unfold State.ageEntry
  rw [hr]
  simp [hkind]

end

/-- A check in CONFIG or CHECKING gives an entry this cell. -/
def State.agedCell (s : State) (i : Nat) : ImageCell :=
  match s.routeAt i with
  | some r => if r.kind.isSensor = true ∧ staleDue r (s.imageAt i) s.now = true then { s.imageAt i with status := .stale }
      else s.imageAt i
  | none => s.imageAt i

theorem State.ageEntry_eq_modImage {s : State} {e : Engine} (h : s.mgmt.engine = .config ∨ s.mgmt.engine = .checking)
    (he : e = .config ∨ e = .checking) (i : Nat) : s.ageEntry e i = s.modImage i fun _ => s.agedCell i := by
  have harmed : e ≠ .armed := by rcases he with rfl | rfl <;> decide
  have hwatch : e ≠ .watch := by rcases he with rfl | rfl <;> decide
  have hsame (hcell : s.agedCell i = s.imageAt i) : s = s.modImage i fun _ => s.agedCell i :=
    (State.modImage_self hcell).symm
  cases hr : s.routeAt i with
  | none =>
    rw [State.ageEntry_other fun r hr' => absurd (hr.symm.trans hr') (Option.some_ne_none r).symm]
    exact hsame (by rw [State.agedCell, hr])
  | some r =>
    have hcell : s.agedCell i = if r.kind.isSensor = true ∧ staleDue r (s.imageAt i) s.now = true then
        { s.imageAt i with status := .stale } else s.imageAt i := by
      rw [State.agedCell, hr]
    cases hkind : r.kind.isSensor with
    | false =>
      rw [State.ageEntry_other fun r' hr' => by rw [← Option.some.inj (hr.symm.trans hr'), hkind]]
      exact hsame (by rw [hcell, hkind]; exact if_neg fun h => Bool.noConfusion h.1)
    | true =>
      rw [State.ageEntry_unarmed hr hkind harmed fun h => absurd h hwatch]
      by_cases hdue : staleDue r (s.imageAt i) s.now = true
      · rw [State.staleTest_due hdue,
          State.monitorStale_unarmed (s := s.modImage i fun c => { c with status := .stale }) h, hcell, if_pos ⟨hkind, hdue⟩]
        rfl
      · rw [State.staleTest_young hdue]
        exact hsame (by rw [hcell, if_neg fun h => hdue h.2])

/-- A check in CONFIG or CHECKING changes the image alone, cell by cell. -/
theorem State.ageFirst_unarmed {s : State} {e : Engine} (h : s.mgmt.engine = .config ∨ s.mgmt.engine = .checking)
    (he : e = .config ∨ e = .checking) (n : Nat) : n ≤ 64 → ∃ image : Vector ImageCell 64,
    (List.range n).foldl (fun u i => u.ageEntry e i) s = { s with image := image } ∧
      ∀ i (hi : i < 64), image[i] = if i < n then s.agedCell i else s.imageAt i := by
  induction n with
  | zero => exact fun _ => ⟨s.image, rfl, fun i hi => by simp [State.imageAt, hi]⟩
  | succ n ih =>
    intro hn
    obtain ⟨image, hfold, hcells⟩ := ih (Nat.le_of_succ_le hn)
    rw [List.range_succ, List.foldl_append, hfold, List.foldl_cons, List.foldl_nil,
      State.ageEntry_eq_modImage (s := { s with image := image }) h he]
    have hcell : State.imageAt { s with image := image } n = s.imageAt n := by
      rw [State.imageAt, Vector.getElem?_eq_getElem hn, Option.getD_some, hcells n hn, if_neg (Nat.lt_irrefl n)]
    have haged : State.agedCell { s with image := image } n = s.agedCell n := by
      unfold State.agedCell
      rw [hcell]
      rfl
    refine ⟨image.setIfInBounds n (s.agedCell n), by rw [haged]; rfl, fun i hi => ?_⟩
    rw [Vector.getElem_setIfInBounds]
    split
    next heq => subst heq; rw [if_pos (Nat.lt_succ_self n)]
    next hne =>
      rw [hcells i hi]
      refine if_congr ?_ rfl rfl
      omega

/-- Settles O56: entry by entry the stale test, then in ARMED the keep-fresh test; outside ARMED and WATCH no signature is
evaluated. -/
theorem ageCheckTakesEveryEntry : Obligations.AgeCheckTakesEveryEntry := by
  have hexec (s : State) (hdue : s.time.ageDue = true) : exec .ageCheck s = .next
      ((List.range 64).foldl (fun u i => u.ageEntry s.mgmt.engine i) { s with time := { s.time with ageDue := false } }) :=
    congrArg Host.Outcome.next (if_pos hdue)
  refine ⟨fun s => ⟨fun h => congrArg Host.Outcome.next (if_neg (by simp [h])), hexec s⟩, ?_, ?_, ?_, ?_⟩
  · intro u e i
    have hmeans (r : RouteEntry) := staleDue_iff r (u.imageAt i) u.now
    refine ⟨State.ageEntry_other, fun r hr hkind => ⟨State.ageEntry_unwatched hr hkind, fun he hw => ?_, ?_⟩⟩
    · rw [State.ageEntry_unarmed hr hkind he hw]
      exact ⟨fun h => State.staleTest_due ((hmeans r).mpr h),
        fun h => State.staleTest_young (mt (hmeans r).mp h)⟩
    · rintro v rfl hv
      have hstale : u.staleTest i r = v := by
        rcases hv with ⟨h, hv⟩ | ⟨h, hv⟩
        · exact (State.staleTest_due ((hmeans r).mpr h)).trans hv.symm
        · exact (State.staleTest_young (mt (hmeans r).mp h)).trans hv.symm
      have hroute : v.routeAt i = some r := by
        rw [← hr, ← hstale]
        exact congrArg (fun t => (Tables.route t)[i]?.join) ((State.EventFrame.refl u).staleTest i r).tables
      rw [State.ageEntry_armed hr hkind, hstale]
      refine ⟨fun hdue hroom => ?_, fun hnot => if_neg ?_⟩
      · rw [State.keepFreshTest, if_pos ⟨(keepFreshDue_iff _ _ _).mpr hdue, hroom⟩, State.appendPoll, hroute]
        rfl
      · rintro ⟨hdue, hroom⟩
        exact hnot.elim (fun h => h ((keepFreshDue_iff _ _ _).mp hdue)) (fun h => Nat.not_lt.mpr h hroom)
  · intro u i
    refine ⟨rfl, fun g h _ => ?_⟩
    cases hsig : u.sigAt g with
    | none => exact State.evalStale_absent hsig
    | some e =>
      rcases h e hsig with h | h | h | h | h | h
      · exact State.evalStale_skipped hsig (.inl h)
      · exact State.evalStale_skipped hsig (.inr (.inl h))
      · exact State.evalStale_skipped hsig (.inr (.inr (State.evaluates_eq_false (.inl h))))
      · exact State.evalStale_skipped hsig (.inr (.inr (State.evaluates_eq_false (.inr (.inl h)))))
      · exact State.evalStale_skipped hsig (.inr (.inr (State.evaluates_eq_false (.inr (.inr h)))))
      · exact State.evalStale_ungated hsig h
  · intro u g e hsig htest hengine hgates
    obtain ⟨_, hcount, hraise⟩ := u.settleSignature_decided g e true 0 (u.runAt g).anchor
    rw [State.evalStale_taken hsig htest ((u.evaluates_iff e).mpr hengine), if_pos hgates]
    exact ⟨hcount rfl, hraise rfl⟩
  · intro s hdue hengine
    obtain ⟨image, hfold, hcells⟩ :=
      State.ageFirst_unarmed (s := { s with time := { s.time with ageDue := false } }) hengine hengine 64 (le_refl _)
    refine ⟨image, (hexec s hdue).trans (congrArg Host.Outcome.next hfold), fun i hi r hr => ?_⟩
    have hcell : image[i] = if r.kind.isSensor = true ∧ staleDue r (s.imageAt i) s.now = true then
        { s.imageAt i with status := .stale } else s.imageAt i := by
      rw [hcells i hi, if_pos hi]
      unfold State.agedCell
      have hroute : State.routeAt { s with time := { s.time with ageDue := false } } i = some r := hr
      rw [hroute] <;> rfl
    rw [hcell]
    refine ⟨fun t hkind hfresh hlast hone hmax hold =>
      if_pos ⟨hkind, (staleDue_iff _ _ _).mpr ⟨hfresh, hone, hmax, t, hlast, hold⟩⟩, fun h => if_neg ?_⟩
    rintro ⟨hkind, hdue⟩
    obtain ⟨hfresh, hone, _, t, hlast, hold⟩ := (staleDue_iff _ _ _).mp hdue
    rcases h with h | h | h | ⟨t', hlast', hyoung⟩
    · rw [h] at hkind
      cases hkind
    · exact h hfresh
    · rw [h] at hone
      exact Nat.not_succ_le_zero _ hone
    · rw [← Option.some.inj (hlast.symm.trans hlast')] at hyoung
      exact Nat.not_lt.mpr hyoung hold

end Sys2Proof.Machine
end

section
/-! The table check (R155): O59. A list of conditions, each with its detail, and what the check finds in it. -/

namespace Sys2Proof.Machine

/-- Among conditions in their order, the detail of the first that fails, `none` when all hold. -/
inductive Finds : Option CheckDetail → List (Prop × CheckDetail) → Prop where
  | nil : Finds none []
  | holds {p : Prop} {d : CheckDetail} {r : Option CheckDetail} {cs : List (Prop × CheckDetail)} :
      p → Finds r cs → Finds r ((p, d) :: cs)
  | fails {p : Prop} {d : CheckDetail} {cs : List (Prop × CheckDetail)} : ¬ p → Finds (some d) ((p, d) :: cs)

namespace Finds

variable {r r' : Option CheckDetail} {a b : List (Prop × CheckDetail)} {p : Prop} {d : CheckDetail}

theorem append_some (h : Finds r a) (hr : r = some d) (b : List (Prop × CheckDetail)) : Finds (some d) (a ++ b) := by
  induction h with
  | nil => cases hr
  | holds hp _ ih => exact .holds hp (ih hr)
  | fails hp => cases hr; exact .fails hp

theorem append_none (h : Finds r a) (hr : r = none) (h' : Finds r' b) : Finds r' (a ++ b) := by
  induction h with
  | nil => exact h'
  | holds hp _ ih => exact .holds hp (ih hr)
  | fails => cases hr

/-- The first of several lists of conditions, then the others. -/
theorem first {l : List (Option CheckDetail)} (h : Finds r a) (h' : Finds (firstFailure l) b) :
    Finds (firstFailure (r :: l)) (a ++ b) := by
  cases r with
  | none => exact h.append_none rfl h'
  | some d => exact h.append_some rfl b

theorem next {l : List (Option CheckDetail)} (h : Finds r [(p, d)]) (h' : Finds (firstFailure l) b) :
    Finds (firstFailure (r :: l)) ((p, d) :: b) := h.first h'

theorem last (h : Finds r a) : Finds (firstFailure [r]) a := by
  cases r <;> exact h

theorem one {ok : Bool} (h : ok = true ↔ p) : Finds (require ok d) [(p, d)] := by
  cases ok with
  | true => exact .holds (h.mp rfl) .nil
  | false => exact .fails fun hp => Bool.noConfusion (h.mpr hp)

theorem flatMap {α : Type} {f : α → Option CheckDetail} {g : α → List (Prop × CheckDetail)} (h : ∀ x, Finds (f x) (g x))
    (l : List α) : Finds (l.findSome? f) (l.flatMap g) := by
  induction l with
  | nil => exact .nil
  | cons x l ih =>
    rw [List.findSome?_cons, List.flatMap_cons]
    have hx := h x
    cases hf : f x with
    | none => exact hx.append_none hf ih
    | some d => exact hx.append_some hf _

theorem find {α : Type} {bad : α → Bool} {q : α → Prop} (h : ∀ x, bad x = false ↔ q x) (f : α → CheckDetail) (l : List α) :
    Finds ((l.find? bad).map f) (l.map fun x => (q x, f x)) := by
  induction l with
  | nil => exact .nil
  | cons x l ih =>
    rw [List.find?_cons, List.map_cons]
    cases hx : bad x with
    | false => exact .holds ((h x).mp hx) ih
    | true => exact .fails fun hq => Bool.noConfusion (hx.symm.trans ((h x).mpr hq))

theorem guarded [Decidable p] (h : p → Finds r a) : Finds (if p then r else none) (if p then a else []) := by
  split
  next hp => exact h hp
  next => exact .nil

/-- It finds none exactly when all conditions hold. -/
theorem eq_none_iff (h : Finds r a) : r = none ↔ ∀ c ∈ a, c.1 := by
  induction h with
  | nil => simp
  | holds hp _ ih => simp [hp, ih]
  | fails hp => simp [hp]

/-- It finds a detail exactly when a condition with this detail is the first to fail. -/
theorem eq_some_iff (h : Finds r a) (d : CheckDetail) : r = some d ↔
    ∃ pre failing post, a = pre ++ (failing, d) :: post ∧ (∀ c ∈ pre, c.1) ∧ ¬ failing := by
  constructor
  · intro hr
    induction h with
    | nil => cases hr
    | @holds p e _ cs hp _ ih =>
      obtain ⟨pre, failing, post, rfl, hpre, hfail⟩ := ih hr
      exact ⟨(p, e) :: pre, failing, post, rfl, List.forall_mem_cons.mpr ⟨hp, hpre⟩, hfail⟩
    | @fails p e cs hp =>
      cases hr
      exact ⟨[], p, cs, rfl, List.forall_mem_nil _, hp⟩
  · rintro ⟨pre, failing, post, hlist, hpre, hfail⟩
    induction h generalizing pre with
    | nil => simp at hlist
    | holds hp _ ih =>
      cases pre with
      | nil => cases hlist; exact absurd hp hfail
      | cons c pre =>
        cases hlist
        exact ih pre rfl fun c hc => hpre c (List.mem_cons_of_mem _ hc)
    | fails hp =>
      cases pre with
      | nil => cases hlist; rfl
      | cons c pre => cases hlist; exact absurd (hpre _ List.mem_cons_self) hp

end Finds

/-! ### Refs -/

/-- A ref that is read is present and of a kind that is admitted. -/
def Tables.needs (t : Tables) (i : Nat) (admits : RouteKind → Prop) (d : CheckReason → CheckDetail) :
    List (Prop × CheckDetail) :=
  [(t.routeAt i ≠ none, d .absentRef), (∀ r, t.routeAt i = some r → admits r.kind, d .wrongKind)]

/-- The same of a ref that may be none. -/
def Tables.needsIf (t : Tables) (i : Option Nat) (admits : RouteKind → Prop) (d : CheckReason → CheckDetail) :
    List (Prop × CheckDetail) := i.toList.flatMap fun i => t.needs i admits d

section
variable {t : Tables} {p : RouteKind → Bool} {admits : RouteKind → Prop} {d : CheckReason → CheckDetail}
  (h : ∀ k, p k = true ↔ admits k)
include h

theorem Tables.finds_ref (i : Nat) : Finds (t.checkRef i p d) (t.needs i admits d) := by
  unfold Tables.checkRef Tables.needs
  cases t.routeAt i with
  | none => exact .fails fun hne => hne rfl
  | some r =>
    refine .holds (Option.some_ne_none r) (.one ((h r.kind).trans ?_))
    simp

theorem Tables.finds_optRef (i : Option Nat) : Finds (t.checkOptRef i p d) (t.needsIf i admits d) := by
  cases i with
  | none => exact .nil
  | some i => exact Tables.finds_ref h i

end

theorem Tables.finds_kind (t : Tables) (i : Nat) (k : RouteKind) (d : CheckReason → CheckDetail) :
    Finds (t.checkRef i (· = k) d) (t.needs i (· = k) d) := Tables.finds_ref (fun _ => decide_eq_true_iff) i

theorem Tables.finds_optKind (t : Tables) (i : Option Nat) (k : RouteKind) (d : CheckReason → CheckDetail) :
    Finds (t.checkOptRef i (· = k) d) (t.needsIf i (· = k) d) := Tables.finds_optRef (fun _ => decide_eq_true_iff) i

theorem Tables.finds_sensor (t : Tables) (i : Nat) (d : CheckReason → CheckDetail) :
    Finds (t.checkRef i RouteKind.isSensor d) (t.needs i (·.isSensor = true) d) := Tables.finds_ref (fun _ => Iff.rfl) i

theorem Tables.finds_actuator (t : Tables) (i : Nat) (d : CheckReason → CheckDetail) :
    Finds (t.checkRef i RouteKind.isActuator d) (t.needs i (·.isActuator = true) d) :=
  Tables.finds_ref (fun _ => Iff.rfl) i

theorem Tables.finds_sensorIf (t : Tables) (i : Option Nat) (d : CheckReason → CheckDetail) :
    Finds (t.checkOptRef i RouteKind.isSensor d) (t.needsIf i (·.isSensor = true) d) :=
  Tables.finds_optRef (fun _ => Iff.rfl) i

/-! ### LINE and ROUTE -/

theorem Tables.finds_line (t : Tables) : Finds t.checkLine
    ((t.line ≠ none, failAt .line 0 0 .lineUnwritten) ::
      t.line.toList.flatMap fun l =>
        t.needs l.entryEye (· = .eyeEntry) (failAt .line 0 1) ++ t.needs l.exitEye (· = .eyeExit) (failAt .line 0 2) ++
        t.needs l.advance (· = .advance) (failAt .line 0 3) ++ t.needsIf l.conveyor (· = .conveyor) (failAt .line 0 4) ++
        t.needsIf l.indicator (· = .indicator) (failAt .line 0 5) ++
        [(l.maxLength < l.exitPos, failAt .line 0 0 .exitShort)]) := by
  unfold Tables.checkLine
  cases t.line with
  | none => exact .fails fun h => h rfl
  | some l =>
    refine .holds (Option.some_ne_none l) ?_
    simp only [Option.toList_some, List.flatMap_singleton, List.append_assoc]
    exact .first (t.finds_kind ..) <| .first (t.finds_kind ..) <| .first (t.finds_kind ..) <| .first (t.finds_optKind ..) <|
      .first (t.finds_optKind ..) <| .last <| .one decide_eq_true_iff

theorem Tables.finds_heaters (t : Tables) :
    Finds t.checkHeaters [(t.heaters.length ≤ 8, failAt .route (t.heaters.getD 8 0) 0 .heaterCount)] := by
  unfold Tables.checkHeaters
  by_cases h : t.heaters.length ≤ 8
  · rw [List.getElem?_eq_none h]
    exact .holds h .nil
  · have hninth : t.heaters[8]? = some (t.heaters.getD 8 0) := by
      rw [List.getD_eq_getElem?_getD, List.getElem?_eq_getElem (Nat.lt_of_not_le h), Option.getD_some]
    rw [Config.maxHeaters, hninth]
    exact .fails h

/-! ### ZONE -/

theorem Tables.finds_overlap (t : Tables) (z : Nat) (e : ZoneEntry) :
    Finds ((t.overlapped z e).map fun y => failAt .zone z y .overlap)
      ((List.range z).map fun y => (∀ o, t.zoneAt y = some o → o.kind ≠ .none → ¬ (e.start < o.stop ∧ o.start < e.stop),
        failAt .zone z y .overlap)) := by
  refine Finds.find (fun y => ?_) _ _
  cases t.zoneAt y with
  | none => simp
  | some o => simp [ZoneEntry.overlaps]

theorem finds_needed {n : Nat} (ref : Option Nat) (d : CheckReason → CheckDetail) :
    Finds (checkNeeded (decide (0 < n)) ref d) [(0 < n → ref ≠ none, d .missingRef)] :=
  .one (by simp [Option.isSome_iff_ne_none, or_iff_not_imp_left, Nat.pos_iff_ne_zero])

theorem Tables.finds_curve (t : Tables) {n : Nat} (c : Nat) (d : CheckReason → CheckDetail) :
    Finds (t.checkCurve (decide (0 < n)) c d) [(0 < n → t.curveAt c ≠ none, d .absentRef)] :=
  .one (by simp [Option.isSome_iff_ne_none, or_iff_not_imp_left, Nat.pos_iff_ne_zero])

theorem Tables.finds_exitShort (t : Tables) (stop : Nat) (d : CheckDetail) :
    Finds (t.line.bind fun l => require (stop ≤ l.exitPos) d) [(∀ l, t.line = some l → stop ≤ l.exitPos, d)] := by
  cases t.line with
  | none => exact .holds (fun _ h => nomatch h) .nil
  | some l => exact .one (by simp)

theorem Tables.finds_zone (t : Tables) (z : Nat) (e : ZoneEntry) : Finds (t.checkZone z e)
    ([(e.start < e.stop ∧ e.stop ≤ 1600, failAt .zone z 0 .span)] ++
      ((List.range z).map fun y => (∀ o, t.zoneAt y = some o → o.kind ≠ .none → ¬ (e.start < o.stop ∧ o.start < e.stop),
        failAt .zone z y .overlap)) ++
      [(∀ l, t.line = some l → e.stop ≤ l.exitPos, failAt .zone z 0 .exitShort),
       (0 < e.heatTarget → e.temp ≠ none, failAt .zone z 1 .missingRef),
       (0 < e.actTarget → e.press ≠ none, failAt .zone z 2 .missingRef)] ++
      t.needsIf e.temp (· = .temp) (failAt .zone z 1) ++ t.needsIf e.press (· = .pressure) (failAt .zone z 2) ++
      t.needsIf e.level (· = .level) (failAt .zone z 3) ++ t.needsIf e.heater (· = .heater) (failAt .zone z 4) ++
      t.needsIf e.pump (· = .pump) (failAt .zone z 5) ++ t.needsIf e.inlet (· = .inlet) (failAt .zone z 6) ++
      t.needsIf e.drain (· = .drain) (failAt .zone z 7) ++
      [(0 < e.heatTarget → t.curveAt e.heatCurve ≠ none, failAt .zone z 8 .absentRef),
       (0 < e.actTarget → t.curveAt e.actCurve ≠ none, failAt .zone z 9 .absentRef)]) := by
  simp only [List.append_assoc, List.cons_append, List.nil_append]
  exact .next (.one (by simp [Config.machineLength])) <| .first (t.finds_overlap z e) <| .next (t.finds_exitShort ..) <|
    .next (finds_needed ..) <| .next (finds_needed ..) <| .first (t.finds_optKind ..) <| .first (t.finds_optKind ..) <|
    .first (t.finds_optKind ..) <| .first (t.finds_optKind ..) <| .first (t.finds_optKind ..) <|
    .first (t.finds_optKind ..) <| .first (t.finds_optKind ..) <| .next (t.finds_curve ..) <| .last (t.finds_curve ..)

/-! ### SIGNATURE -/

theorem Tables.finds_signature (t : Tables) (g : Nat) (e : SigEntry) : Finds (t.checkSignature g e)
    ([(e.cls ≤ 8, failAt .signature g 0 .classRange)] ++ t.needs e.chA (·.isSensor = true) (failAt .signature g 1) ++
      (if e.test = .diffAbove then
        (e.chB ≠ none, failAt .signature g 2 .missingRef) :: t.needsIf e.chB (·.isSensor = true) (failAt .signature g 2)
      else []) ++
      (if 1 ≤ e.gateCount then t.needs e.gate1.ref (·.isActuator = true) (failAt .signature g 3) else []) ++
      (if 2 ≤ e.gateCount then t.needs e.gate2.ref (·.isActuator = true) (failAt .signature g 4) else []) ++
      [(∀ z, e.zone = some z → t.zoneAt z ≠ none, failAt .signature g 5 .absentRef)]) := by
  have hgate {n : Nat} (c : GateCond) (d : CheckReason → CheckDetail) :
      Finds (t.checkGate (n ≤ e.gateCount) c d) (if n ≤ e.gateCount then t.needs c.ref (·.isActuator = true) d else []) := by
    unfold Tables.checkGate
    simp only [decide_eq_true_eq]
    exact .guarded fun _ => t.finds_actuator ..
  have hchB : Finds (t.checkChB e (failAt .signature g 2)) (if e.test = .diffAbove then
      (e.chB ≠ none, failAt .signature g 2 .missingRef) :: t.needsIf e.chB (·.isSensor = true) (failAt .signature g 2)
      else []) := by
    refine .guarded fun _ => ?_
    cases e.chB with
    | none => exact .fails fun h => h rfl
    | some b => exact .holds (Option.some_ne_none b) (t.finds_sensorIf (some b) _)
  have hzone : Finds (t.checkSigZone e (failAt .signature g 5))
      [(∀ z, e.zone = some z → t.zoneAt z ≠ none, failAt .signature g 5 .absentRef)] := by
    unfold Tables.checkSigZone
    cases e.zone with
    | none => exact .holds (fun _ h => nomatch h) .nil
    | some z => exact .one (by simp [Option.isSome_iff_ne_none])
  simp only [List.append_assoc]
  exact .first (.one decide_eq_true_iff) <| .first (t.finds_sensor ..) <| .first hchB <| .first (hgate ..) <|
    .first (hgate ..) <| .last hzone

/-! ### PLAN -/

theorem Tables.finds_tank (t : Tables) (e : PlanSlot) (d : CheckReason → CheckDetail) : Finds (t.checkTankStep e d)
    (if e.kind = .drain ∨ e.kind = .refill then
      [(∃ z, t.zoneAt e.subject.toNat = some z ∧ z.kind ≠ .none, d .absentRef),
       (∀ z, t.zoneAt e.subject.toNat = some z → z.level ≠ none ∧ (e.kind = .drain → z.drain ≠ none) ∧
          (e.kind = .refill → z.inlet ≠ none), d .missingRef)]
    else []) := by
  refine .guarded fun hkind => ?_
  cases t.zoneAt e.subject.toNat with
  | none => exact .fails (by simp)
  | some z =>
    dsimp only
    by_cases hnone : z.kind = .none
    · rw [if_pos hnone]
      exact .fails (by simp [hnone])
    · rw [if_neg hnone]
      refine .holds ⟨z, rfl, hnone⟩ (.one ?_)
      rcases hkind with hkind | hkind <;> simp [hkind, ZoneEntry.stepValve, Option.isSome_iff_ne_none]

theorem waitRef_eq_mod (subject : Byte) : waitRef subject = subject.toNat % 64 :=
  (BitVec.toNat_and _ _).trans (Nat.and_two_pow_sub_one_eq_mod _ 6)

theorem Tables.finds_stepRef (t : Tables) (e : PlanSlot) (d : CheckReason → CheckDetail) : Finds (t.checkStepRef e d)
    (if e.kind = .set ∨ e.kind = .release then t.needs e.subject.toNat (·.isActuator = true) d
      else if e.kind = .waitFor then t.needs (e.subject.toNat % 64) (·.isSensor = true) d else []) := by
  rw [Tables.checkStepRef, waitRef_eq_mod]
  cases e.kind with
  | set | release => exact t.finds_actuator ..
  | waitFor => exact t.finds_sensor ..
  | _ => exact .nil

theorem Tables.hasConveyor_iff (t : Tables) : t.hasConveyor = true ↔ ∃ l i, t.line = some l ∧ l.conveyor = some i := by
  unfold Tables.hasConveyor
  cases t.line <;> simp [Option.isSome_iff_exists]

theorem StepKind.isConveyor_iff (k : StepKind) :
    k.isConveyor = true ↔ k = .holdLine ∨ k = .runLine ∨ k = .capLine ∨ k = .releaseLine := by
  cases k <;> decide

theorem Tables.finds_step (t : Tables) (p step : Nat) (e : PlanSlot) : Finds (t.checkStep p step e)
    ([(∀ f, e.failTarget = some f → step < f, failAt .plan p step .failTarget)] ++
      (if e.kind = .set ∨ e.kind = .release then t.needs e.subject.toNat (·.isActuator = true) (failAt .plan p step)
      else if e.kind = .waitFor then t.needs (e.subject.toNat % 64) (·.isSensor = true) (failAt .plan p step) else []) ++
      (if e.kind = .drain ∨ e.kind = .refill then
        [(∃ z, t.zoneAt e.subject.toNat = some z ∧ z.kind ≠ .none, failAt .plan p step .absentRef),
         (∀ z, t.zoneAt e.subject.toNat = some z → z.level ≠ none ∧ (e.kind = .drain → z.drain ≠ none) ∧
            (e.kind = .refill → z.inlet ≠ none), failAt .plan p step .missingRef)]
      else []) ++
      [(e.kind = .mark → e.subject.toNat ≤ e.value.toNat, failAt .plan p step .markOrder),
       (e.kind = .holdLine ∨ e.kind = .runLine ∨ e.kind = .capLine ∨ e.kind = .releaseLine →
          ∃ l i, t.line = some l ∧ l.conveyor = some i, failAt .plan p step .missingRef)]) := by
  have hfail : Finds (require (match e.failTarget with | none => true | some f => decide (step < f))
      (failAt .plan p step .failTarget))
      [(∀ f, e.failTarget = some f → step < f, failAt .plan p step .failTarget)] := by
    cases e.failTarget with
    | none => exact .holds (fun _ h => nomatch h) .nil
    | some f => exact .one (by simp)
  have hmark : (e.kind ≠ .mark || e.subject.toNat ≤ e.value.toNat) = true ↔
      (e.kind = .mark → e.subject.toNat ≤ e.value.toNat) := by
    simp [or_iff_not_imp_left]
  have hconveyor : (!e.kind.isConveyor || t.hasConveyor) = true ↔
      (e.kind = .holdLine ∨ e.kind = .runLine ∨ e.kind = .capLine ∨ e.kind = .releaseLine →
        ∃ l i, t.line = some l ∧ l.conveyor = some i) := by
    rw [← t.hasConveyor_iff, ← e.kind.isConveyor_iff]
    cases e.kind.isConveyor <;> simp
  simp only [List.append_assoc]
  exact .first hfail <| .first (t.finds_stepRef ..) <| .first (t.finds_tank ..) <| .first (.one hmark) <|
    .last (.one hconveyor)

/-! ### SELECT -/

theorem Tables.finds_cell (t : Tables) (c : Nat) (ph : Phase) (cell : Option Nat) : Finds (t.checkCell c ph cell)
    [(∀ p, cell = some p → t.slotAt p 0 ≠ none, failAt .select c ph.code .absentRef)] := by
  cases cell with
  | none => exact .holds (fun _ h => nomatch h) .nil
  | some p => exact .one (by simp [Option.isSome_iff_ne_none])

theorem Tables.finds_row (t : Tables) (c : Nat) (r : SelectRow) : Finds (t.checkRow c r)
    ([r.standby, r.fill, r.heatUp, r.production, r.pause, r.empty].mapIdx fun phase cell =>
      (∀ p, cell = some p → t.slotAt p 0 ≠ none, failAt .select c phase .absentRef)) :=
  .first (t.finds_cell c .standby r.standby) <| .first (t.finds_cell c .fill r.fill) <|
    .first (t.finds_cell c .heatUp r.heatUp) <| .first (t.finds_cell c .production r.production) <|
    .first (t.finds_cell c .pause r.pause) <| .last (t.finds_cell c .empty r.empty)

/-! ### The whole check -/

/-- An entry of a table at an index, nothing where it is absent. -/
theorem Finds.entry {α : Type} {f : α → Option CheckDetail} {g : α → List (Prop × CheckDetail)} (h : ∀ e, Finds (f e) (g e))
    (o : Option α) : Finds (o.bind f) (o.toList.flatMap g) := by
  cases o with
  | none => exact .nil
  | some e => rw [Option.toList_some, List.flatMap_singleton]; exact h e

/-- The same where entries of one kind are not examined. -/
theorem Finds.entryBut {α : Type} {f : α → Option CheckDetail} {g : α → List (Prop × CheckDetail)} {skip : α → Prop}
    [DecidablePred skip] (h : ∀ e, Finds (f e) (g e)) (o : Option α) :
    Finds (o.bind fun e => if skip e then none else f e) ((o.toList.filter fun e => decide (¬ skip e)).flatMap g) := by
  cases o with
  | none => exact .nil
  | some e =>
    by_cases hskip : skip e
    · simpa [hskip] using Finds.nil
    · simpa [hskip] using h e

theorem Tables.heaters_eq (t : Tables) :
    t.heaters = (List.range 64).filter fun i => ((t.route[i]?).join).any fun r => decide (r.kind = .heater) := by
  refine List.filter_congr fun i _ => ?_
  show (match (t.route[i]?).join with | some r => _ | none => _) = _
  cases (t.route[i]?).join <;> rfl

theorem Tables.checkZones_eq (t : Tables) : t.checkZones =
    (List.range 8).findSome? fun z => (t.zoneAt z).bind fun e => if e.kind = .none then none else t.checkZone z e := by
  refine congrArg (List.findSome? · _) (funext fun z => ?_)
  cases t.zoneAt z <;> rfl

theorem Tables.checkSignatures_eq (t : Tables) :
    t.checkSignatures = (List.range 48).findSome? fun g => (t.signature[g]?).join.bind (t.checkSignature g) := by
  refine congrArg (List.findSome? · _) (funext fun g => ?_)
  cases (t.signature[g]?).join <;> rfl

theorem Tables.checkPlans_eq (t : Tables) : t.checkPlans = (List.range 24).findSome? fun p =>
    (List.range 12).findSome? fun step => (t.slotAt p step).bind (t.checkStep p step) := by
  refine congrArg (List.findSome? · _) (funext fun p => congrArg (List.findSome? · _) (funext fun step => ?_))
  cases t.slotAt p step <;> rfl

theorem Tables.checkSelects_eq (t : Tables) :
    t.checkSelects = (List.range 12).findSome? fun c => (t.select[c]?).join.bind (t.checkRow c) := by
  refine congrArg (List.findSome? · _) (funext fun c => ?_)
  cases (t.select[c]?).join <;> rfl

/-- Settles O59: part after part, entry after entry, condition after condition. -/
theorem tableCheckFindsTheFirstFault : Obligations.TableCheckFindsTheFirstFault := by
  intro t detail route zone slot heaters needs needsIf line zones signatures plans selects conditions
  have hline : Finds t.checkLine line := t.finds_line
  have hheaters : Finds t.checkHeaters [(heaters.length ≤ 8, detail 2 (heaters.getD 8 0) 0 .heaterCount)] := by
    have h := t.finds_heaters
    rw [t.heaters_eq] at h
    exact h
  have hzones : Finds t.checkZones zones :=
    t.checkZones_eq ▸ .flatMap (fun z => .entryBut (t.finds_zone z) (t.zoneAt z)) _
  have hsignatures : Finds t.checkSignatures signatures :=
    t.checkSignatures_eq ▸ .flatMap (fun g => .entry (t.finds_signature g) _) _
  have hplans : Finds t.checkPlans plans :=
    t.checkPlans_eq ▸ .flatMap (fun p => .flatMap (fun step => .entry (t.finds_step p step) (t.slotAt p step)) _) _
  have hselects : Finds t.checkSelects selects := t.checkSelects_eq ▸ .flatMap (fun c => .entry (t.finds_row c) _) _
  have hall : Finds t.check conditions := by
    simp only [conditions, List.append_assoc]
    exact .first hline <| .first hheaters <| .first hzones <| .first hsignatures <| .first hplans <| .last hselects
  exact ⟨hall.eq_none_iff, hall.eq_some_iff⟩

end Sys2Proof.Machine
end

section
/-! The ends of node transactions by a reply (R120, R123): O52. -/

namespace Sys2Proof.Machine

/-- The block that placed the request is not told of the transaction's end. -/
def Origin.untold : Origin → Bool
  | .forceOff _ | .replay _ | .plan _ _ _ => false
  | _ => true

section
variable {s : State} {t : NodeTrans} {f : Sys2Proof.Frame} {e : OrderEnd}

/-! ### Stage 3 -/

theorem State.originEnded_untold (htrans : s.ports.trans = some t) (h : t.origin.untold = true) : s.originEnded e = s := by
  unfold State.originEnded
  rw [htrans]
  dsimp only
  cases ho : t.origin with
  | forceOff | replay | plan => rw [ho] at h; cases h
  | _ => rfl

theorem State.originEnded_plan {d st i : Nat} (htrans : s.ports.trans = some t) (h : t.origin = .plan d st i) :
    s.originEnded e = s.planOrderEnded d st e := by
  simp only [State.originEnded, htrans, h]

theorem State.originEnded_replay {i : Nat} (htrans : s.ports.trans = some t) (h : t.origin = .replay i) :
    s.originEnded e = s.replayEnded i := by
  simp only [State.originEnded, htrans, h]

theorem State.originEnded_forceOff {i : Nat} (htrans : s.ports.trans = some t) (h : t.origin = .forceOff i) :
    s.originEnded e = s.forceOffEnded i (e = .done) := by
  simp only [State.originEnded, htrans, h]

theorem State.replayEnded_due {i : Nat} {v : Half} (h : (s.gateAt i).held = .replayDue v) :
    s.replayEnded i = s.modGate i fun g => { g with held := .empty } := by
  rw [State.replayEnded, h]

theorem State.replayEnded_none {i : Nat} (h : ∀ v, (s.gateAt i).held ≠ .replayDue v) : s.replayEnded i = s := by
  unfold State.replayEnded
  split
  next v hv => exact absurd hv (h v)
  next => rfl

theorem State.forceOffEnded_over {i : Nat} {done : Bool} (h : done = true ∨ s.contain.engaged = false) :
    s.forceOffEnded i done = s.modGate i fun g => { g with forceOffDue := false, deferred := false } := by
  refine if_pos ?_
  rcases h with h | h <;> rw [h]
  · rfl
  · exact Bool.or_true done

theorem State.forceOffEnded_due {i : Nat} (h : s.contain.engaged = true) :
    s.forceOffEnded i false = s.modGate i fun g => { g with deferred := g.forceOffDue } :=
  if_neg (by rw [h]; decide)

/-! ### Stage 2 -/

/-- The miss count is cleared, and with a keep-fresh poll its mark. -/
def State.replyCounted (t : NodeTrans) (s : State) : State := (s.setMisses t.req.dst 0).clearKeepPending t.origin

theorem State.imageTakesReply_transparent (h : t.origin.transparent = true) : s.imageTakesReply t f = s := if_pos h

theorem State.imageTakesReply_offered (h : t.origin.transparent = false) :
    (s.setMisses t.req.dst 0).imageTakesReply t f = (s.replyCounted t).offerReply f := if_neg (by rw [h]; decide)

theorem State.offerReply_eq (f : Sys2Proof.Frame) (s : State) : s.offerReply f =
    match s.findRoute f.src f.chan with
    | some (i, r) =>
      if f.kind = Kind.reading ∧ r.kind.isSensor = true then
        s.takeReading i (half (f.payload.getD 1 0) (f.payload.getD 2 0)) (decide (f.payload.getD 3 0 = 0))
      else if f.kind = Kind.ack ∧ r.kind.isActuator = true ∧ f.payload.getD 1 0 = 0 then
        s.modImage i fun c => { c with applied := half (f.payload.getD 2 0) (f.payload.getD 3 0) }
      else s
    | none => s := by
  unfold State.offerReply
  cases s.findRoute f.src f.chan with
  | none => rfl
  | some e =>
    obtain ⟨i, r⟩ := e
    refine if_congr Iff.rfl rfl ?_
    by_cases hact : f.kind = Kind.ack ∧ r.kind.isActuator = true
    · simp only [hact, true_and]
      rfl
    · rw [if_neg hact, if_neg fun h => hact ⟨h.1, h.2.1⟩]

/-- What an ACK changes of the image. -/
theorem State.offerReply_ack (hack : f.kind = Kind.ack) :
    s.offerReply f = s ∨ ∃ i g, s.offerReply f = s.modImage i g := by
  have hreading : f.kind ≠ Kind.reading := by rw [hack]; decide
  unfold State.offerReply
  split
  · exact .inl rfl
  · rw [if_neg fun h => hreading h.1]
    split
    · unfold State.takeAck
      split
      · exact .inr ⟨_, _, rfl⟩
      · exact .inl rfl
    · exact .inl rfl

/-- An ACK hands nothing on: the gate, containment and the transaction stay. -/
theorem State.offerReply_ack_frame (hack : f.kind = Kind.ack) :
    (s.offerReply f).gate = s.gate ∧ (s.offerReply f).contain = s.contain ∧ (s.offerReply f).ports = s.ports := by
  rcases s.offerReply_ack hack with h | ⟨i, g, h⟩ <;> rw [h] <;> exact ⟨rfl, rfl, rfl⟩

theorem State.replyCounted_eq (t : NodeTrans) (s : State) : s.replyCounted t =
    match t.origin with
    | .keepFresh i => (s.setMisses t.req.dst 0).modImage i fun c => { c with keepPending := false }
    | _ => s.setMisses t.req.dst 0 := by
  unfold State.replyCounted State.clearKeepPending
  cases t.origin <;> rfl

theorem State.replyCounted_frame (t : NodeTrans) (s : State) : (s.replyCounted t).tables = s.tables ∧
    (s.replyCounted t).gate = s.gate ∧ (s.replyCounted t).contain = s.contain ∧
      (s.replyCounted t).ports.trans = s.ports.trans := by
  unfold State.replyCounted State.clearKeepPending
  split <;> exact ⟨rfl, rfl, rfl, rfl⟩

/-! ### The whole end -/

/-- The state once the image has taken the reply. -/
def State.replyTaken (t : NodeTrans) (f : Sys2Proof.Frame) (s : State) : State := (s.setMisses t.req.dst 0).imageTakesReply t f

theorem State.replyTaken_trans (htrans : s.ports.trans = some t) (h : t.origin.untold = true) :
    (s.replyTaken t f).ports.trans = some t := by
  rw [← htrans]
  refine (State.imageTakesReply_event t f (s.setMisses t.req.dst 0)).origin t htrans fun d st i hplan => ?_
  rw [hplan] at h
  cases h

theorem State.endWithReply_untold (htrans : s.ports.trans = some t) (h : t.origin.untold = true) :
    s.endWithReply t f = ((s.replyTaken t f).setTrans none).upstreamReply t f :=
  congrArg (fun u => (State.setTrans none u).upstreamReply t f)
    (State.originEnded_untold (State.replyTaken_trans htrans h) h)

theorem exec_nodeReply_ends (htrans : s.ports.trans = some t) (hf : f.malformed = false) (hreply : t.isReply f = true) :
    exec (.nodeReply f) s = .next (s.endWithReply t f) := by
  refine congrArg Host.Outcome.next ?_
  unfold State.receiveN
  rw [if_neg (by rw [hf]; decide), htrans]
  exact if_pos hreply

theorem replyEnd_of_ack (hack : f.kind = Kind.ack) : replyEnd f = if f.payload.getD 1 0 = 0 then .done else .refused :=
  if_congr (and_iff_right hack) rfl rfl

end

/-! ### Stage 4 -/

theorem Origin.transparent_controller {c : CtlFrame} (h : c.kind = .transparent) : (Origin.controller c).transparent = true := by
  obtain ⟨req, kind⟩ := c
  cases h
  rfl

theorem Origin.opaque_controller {c : CtlFrame} (h : c.kind ≠ .transparent) : (Origin.controller c).transparent = false := by
  obtain ⟨req, kind⟩ := c
  cases kind with
  | transparent => exact absurd rfl h
  | _ => rfl

section
variable {s : State} {t : NodeTrans} {f : Sys2Proof.Frame} {c : CtlFrame} (ho : t.origin = .controller c)
include ho

theorem State.upstreamReply_forwarded (hk : ∀ i p, c.kind ≠ .protectedPoll i p) :
    s.upstreamReply t f = s.reply (forwardedReply f (orderRewritten c t.req)) := by
  simp only [State.upstreamReply, ho, State.forwardReply]

theorem State.upstreamReply_protected {i : Nat} {p : Sys2Proof.Frame} (hk : c.kind = .protectedPoll i p) :
    s.upstreamReply t f = s.reply (gateAck c.req AckStatus.protectedStatus f.readingValue) := by
  simp only [State.upstreamReply, ho, State.forwardReply, hk]

end

theorem State.upstreamReply_none {s : State} {t : NodeTrans} (f : Sys2Proof.Frame) (h : ∀ c, t.origin ≠ .controller c) :
    s.upstreamReply t f = s := by
  unfold State.upstreamReply
  split
  next c hc => exact absurd hc (h c)
  next => rfl

/-- Settles O52: stage by stage, the origin deciding the third and the fourth. -/
theorem nodeRepliesEndTheTransaction : Obligations.NodeRepliesEndTheTransaction := by
  intro s f t htrans hf hreply cleared observed done ends forwarded
  have hcounted : s.replyCounted t = cleared := s.replyCounted_eq t
  obtain ⟨htables, hgate, hcontain, hkept⟩ := s.replyCounted_frame t
  have hobserved (h : t.origin.transparent = false) : s.replyTaken t f = observed := by
    have hroute : cleared.findRoute f.src f.chan = s.findRoute f.src f.chan := by
      rw [← hcounted, State.findRoute_of_tables htables]
    rw [State.replyTaken, State.imageTakesReply_offered h, hcounted, State.offerReply_eq, hroute] <;> rfl
  have hends {u : State} (h : s.endWithReply t f = u) : ends u := by
    rw [← h]
    exact exec_nodeReply_ends htrans hf hreply
  have huntold {o : Origin} (ho : t.origin = o) (h : o.untold = true) (htr : o.transparent = false) :
      s.endWithReply t f = (observed.setTrans none).upstreamReply t f := by
    rw [State.endWithReply_untold htrans (ho ▸ h), hobserved (ho ▸ htr)]
  have htold {u : State} (ho : t.origin.untold = false) (hack : f.kind = Kind.ack)
      (h : observed.gate = s.gate → observed.contain = s.contain → observed.ports.trans = some t →
        observed.originEnded (if f.payload.getD 1 0 = 0 then .done else .refused) = u) : ends (u.setTrans none) := by
    have hcontroller (c : CtlFrame) : t.origin ≠ .controller c := fun hc => by rw [hc] at ho; cases ho
    have htransparent : t.origin.transparent = false := by
      cases h' : t.origin with
      | controller c => exact absurd h' (hcontroller c)
      | _ => rfl
    have htaken := hobserved htransparent
    have hoffered : (s.replyCounted t).offerReply f = observed := by
      rw [← htaken, State.replyTaken, State.imageTakesReply_offered htransparent]
    obtain ⟨hgate', hcontain', hports⟩ := State.offerReply_ack_frame (s := s.replyCounted t) hack
    rw [hoffered] at hgate' hcontain' hports
    have hend := h (hgate'.trans hgate) (hcontain'.trans hcontain) ((congrArg _ hports).trans (hkept.trans htrans))
    refine hends ?_
    rw [← replyEnd_of_ack hack, ← htaken] at hend
    rw [← hend]
    exact State.upstreamReply_none f hcontroller
  refine ⟨fun c ho => ⟨fun hk => hends ?_, fun i hk => hends ?_, fun i v hk => hends ?_, fun i p hk => hends ?_⟩,
    fun i ho => hends ?_, fun d st i ho hack => ?_, fun i ho hack => ?_, fun i ho hack => ?_⟩
  · have htr : t.origin.transparent = true := ho ▸ Origin.transparent_controller hk
    have hcleared : s.replyTaken t f = cleared := by
      rw [State.replyTaken, State.imageTakesReply_transparent htr]
      simp only [cleared, ho]
    rw [State.endWithReply_untold htrans (ho ▸ rfl), hcleared, State.upstreamReply_forwarded ho (by simp [hk])]
    simp only [orderRewritten, hk]
    rfl
  · rw [huntold ho rfl (Origin.opaque_controller (by simp [hk])), State.upstreamReply_forwarded ho (by simp [hk])]
    simp only [orderRewritten, hk]
    rfl
  · rw [huntold ho rfl (Origin.opaque_controller (by simp [hk])), State.upstreamReply_forwarded ho (by simp [hk])]
    simp only [orderRewritten, hk]
    rfl
  · rw [huntold ho rfl (Origin.opaque_controller (by simp [hk])), State.upstreamReply_protected ho hk, gateAck, ackPayload, bytes2,
      Frame.readingValue, hiByte_half, loByte_half] <;> rfl
  · rcases ho with ho | ho | ho | ho | ho <;>
      exact (huntold ho rfl rfl).trans (State.upstreamReply_none f fun c hc => by rw [ho] at hc; cases hc)
  · refine ⟨fun hdone => htold (ho ▸ rfl) hack fun _ _ htr => ?_, fun hdone => htold (ho ▸ rfl) hack fun _ _ htr => ?_⟩
    · rw [if_pos hdone.2, State.originEnded_plan htr ho]
    · rw [if_neg fun h => hdone ⟨hack, h⟩, State.originEnded_plan htr ho]
  · have hheld (hg : observed.gate = s.gate) : (observed.gateAt i).held = (s.gateAt i).held := by
      rw [State.gateAt, hg, State.gateAt]
    refine ⟨fun v hv => htold (ho ▸ rfl) hack fun hg _ htr => ?_, fun hv => htold (ho ▸ rfl) hack fun hg _ htr => ?_⟩
    · rw [State.originEnded_replay htr ho, State.replayEnded_due ((hheld hg).trans hv)]
    · rw [State.originEnded_replay htr ho, State.replayEnded_none fun v => (hheld hg).symm ▸ hv v]
  · refine ⟨fun h => htold (ho ▸ rfl) hack fun _ hc htr => ?_, fun hdone heng => htold (ho ▸ rfl) hack fun _ hc htr => ?_⟩
    · rw [State.originEnded_forceOff htr ho]
      refine State.forceOffEnded_over (h.imp (fun hdone => ?_) fun heng => by rw [hc, heng])
      rw [if_pos hdone.2]
      rfl
    · rw [State.originEnded_forceOff htr ho, if_neg fun h => hdone ⟨hack, h⟩]
      exact State.forceOffEnded_due (by rw [hc, heng])

end Sys2Proof.Machine
end

section
/-! The ends of node transactions by a miss (R120 to R124): O53. -/

namespace Sys2Proof.Machine

theorem State.applied_modImage {f : ImageCell → ImageCell} (hf : ∀ c, (f c).applied = c.applied) (i j : Nat) (s : State) :
    ((s.modImage i f).imageAt j).applied = (s.imageAt j).applied := by
  rw [State.imageAt, State.modImage_image, Vector.getElem?_setIfInBounds]
  split
  next h =>
    subst h
    split
    next => exact hf _
    next hi => rw [State.imageAt, Vector.getElem?_eq_none (Nat.le_of_not_lt hi)]
  next => rfl

theorem State.countMiss_image (node : Byte) (s : State) : (s.countMiss node).image = s.image := by
  unfold State.countMiss
  dsimp only
  split
  · exact (State.raise_image ..).trans rfl
  · rfl

section
variable {s : State} {t : NodeTrans}

/-- What a miss of a POLL sets of the image. -/
theorem State.missPoll_eq (req : Sys2Proof.Frame) (s : State) : s.missPoll req =
    match s.findRoute req.dst req.chan with
    | some (i, e) => if req.isPoll = true ∧ e.kind.isSensor = true then s.modImage i fun c => { c with pollRef := some s.now } else s
    | none => s := by
  unfold State.missPoll
  cases s.findRoute req.dst req.chan with
  | none => exact ite_self s
  | some e =>
    by_cases hpoll : req.isPoll = true
    · simp only [hpoll, if_true, true_and]
    · rw [if_neg hpoll]
      exact (if_neg fun h => hpoll h.1).symm

/-- The state once the image has been told of the miss. -/
def State.missTaken (t : NodeTrans) (s : State) : State := (s.countMiss t.req.dst).imageTakesMiss t

theorem State.missTaken_transparent (h : t.origin.transparent = true) : s.missTaken t = s.countMiss t.req.dst := if_pos h

theorem State.missTaken_observed (h : t.origin.transparent = false) :
    s.missTaken t = ((s.countMiss t.req.dst).clearKeepPending t.origin).missPoll t.req := if_neg (by rw [h]; decide)

theorem State.missTaken_event (t : NodeTrans) (s : State) : s.EventFrame (s.missTaken t) :=
  (s.countMiss_event _).trans' (State.imageTakesMiss_event _ _)

theorem State.missTaken_applied (i : Nat) : ((s.missTaken t).imageAt i).applied = (s.imageAt i).applied := by
  have hcount : ((s.countMiss t.req.dst).imageAt i).applied = (s.imageAt i).applied := by
    rw [State.imageAt, s.countMiss_image, State.imageAt]
  have hclear (u : State) (o : Origin) : ((u.clearKeepPending o).imageAt i).applied = (u.imageAt i).applied := by
    unfold State.clearKeepPending
    split
    · exact State.applied_modImage (by intro _; rfl) _ _ _
    · rfl
  have hmiss (u : State) (req : Sys2Proof.Frame) : ((u.missPoll req).imageAt i).applied = (u.imageAt i).applied := by
    rw [State.missPoll_eq]
    split
    · split
      · exact State.applied_modImage (by intro _; rfl) _ _ _
      · rfl
    · rfl
  cases h : t.origin.transparent with
  | true => rw [State.missTaken_transparent h, hcount]
  | false => rw [State.missTaken_observed h, hmiss, hclear, hcount]

/-! ### The whole end -/

theorem State.endWithMiss_untold (htrans : s.ports.trans = some t) (h : t.origin.untold = true) :
    s.endWithMiss t = ((s.missTaken t).setTrans none).upstreamMiss t := by
  have hkept : (s.missTaken t).ports.trans = some t := by
    rw [← htrans]
    refine (s.missTaken_event t).origin t htrans fun d st i hplan => ?_
    rw [hplan] at h
    cases h
  exact congrArg (fun u => (State.setTrans none u).upstreamMiss t) (State.originEnded_untold hkept h)

theorem State.endWithMiss_told (h : ∀ c, t.origin ≠ .controller c) :
    s.endWithMiss t = ((s.missTaken t).originEnded .noReply).setTrans none := by
  show State.upstreamMiss t _ = _
  unfold State.upstreamMiss
  split
  next c hc => exact absurd hc (h c)
  next => rfl

theorem State.upstreamMiss_controller {c : CtlFrame} (ho : t.origin = .controller c) : s.upstreamMiss t =
    if c.req.isPoll then s.reply (noReplyReading c.req) else s.reply (noReplyAck c.req (s.noReplyApplied c.kind)) := by
  simp only [State.upstreamMiss, ho, State.missReply]

theorem State.nonReplyEnded_expired (htrans : s.ports.trans = some t) (h : t.expired = true) :
    s.nonReplyEnded = s.endWithMiss t := by
  simp only [State.nonReplyEnded, htrans, h, if_true]

theorem State.lateFrame_timing (htrans : s.ports.trans = some t) (h : t.timing = true) (f : Sys2Proof.Frame) :
    s.lateFrame f = (s.setTrans (some { t with begun := true, expired := true })).receiveN f := by
  simp only [State.lateFrame, htrans, h, if_true]

end

/-- Settles O53: a miss stage by stage, and what a late frame makes of it. -/
theorem timeoutMissesOrWaits : Obligations.TimeoutMissesOrWaits := by
  unfold Obligations.TimeoutMissesOrWaits
  intro missed s
  have hmissed (u : State) (t : NodeTrans) (htrans : u.ports.trans = some t) : missed u t (u.endWithMiss t) := by
    dsimp -zeta only [missed]
    intro counted raised cleared observed
    have hcleared : (u.countMiss t.req.dst).clearKeepPending t.origin = cleared := by
      unfold State.clearKeepPending
      simp only [cleared]
      cases t.origin <;> rfl
    have hobserved (h : t.origin.transparent = false) : u.missTaken t = observed := by
      have hframe := (u.countMiss_event t.req.dst).trans' ((State.EventFrame.refl _).clearKeepPending t.origin)
      have hnow : (State.clearKeepPending t.origin (u.countMiss t.req.dst)).now = u.time.clock := hframe.clock
      rw [State.missTaken_observed h, State.missPoll_eq, State.findRoute_of_tables hframe.tables, hnow, hcleared] <;> rfl
    have huntold {c : CtlFrame} (ho : t.origin = .controller c) :
        u.endWithMiss t = ((u.missTaken t).setTrans none).upstreamMiss t :=
      State.endWithMiss_untold htrans (ho ▸ rfl)
    have hpoll {c : CtlFrame} (ho : t.origin = .controller c) (h : c.req.isPoll = true) :
        u.endWithMiss t = ((u.missTaken t).setTrans none).reply (noReplyReading c.req) := by
      rw [huntold ho, State.upstreamMiss_controller ho, if_pos h]
    have hother {c : CtlFrame} (ho : t.origin = .controller c) (h : c.req.isPoll = false) :
        u.endWithMiss t = ((u.missTaken t).setTrans none).reply
          (noReplyAck c.req (((u.missTaken t).setTrans none).noReplyApplied c.kind)) := by
      rw [huntold ho, State.upstreamMiss_controller ho, if_neg (by rw [h]; decide)]
    have happlied (i : Nat) : (((u.missTaken t).setTrans none).imageAt i).applied = (u.imageAt i).applied :=
      State.missTaken_applied i
    have hseen {c : CtlFrame} (ho : t.origin = .controller c) (hk : c.kind ≠ .transparent) : u.missTaken t = observed :=
      hobserved (ho ▸ Origin.opaque_controller hk)
    have hhidden {c : CtlFrame} (ho : t.origin = .controller c) (hk : c.kind = .transparent) : u.missTaken t = raised :=
      State.missTaken_transparent (ho ▸ Origin.transparent_controller hk)
    have htold {o : Origin} (ho : t.origin = o) (htr : o.transparent = false) (hc : ∀ c, o ≠ .controller c) :
        u.endWithMiss t = (observed.originEnded .noReply).setTrans none := by
      rw [State.endWithMiss_told (ho ▸ hc), hobserved (ho ▸ htr)]
    have hkept {o : Origin} (ho : t.origin = o) (htr : o.transparent = false) (hplan : ∀ d st i, o ≠ .plan d st i) :
        observed.ports.trans = some t := by
      rw [← htrans, ← hobserved (ho ▸ htr)]
      exact (u.missTaken_event t).origin t htrans (ho ▸ hplan)
    refine ⟨fun c ho => ⟨fun hk h => ?_, fun hk h => ?_, fun i hk h => ?_, fun i v hk h => ?_, fun i p hk h => ?_⟩,
      fun i ho => ?_, fun d st i ho => ⟨fun htr => ?_, fun htr => ?_⟩, fun i ho => ⟨fun v hv => ?_, fun hv => ?_⟩,
      fun i ho => ⟨fun heng => ?_, fun heng => ?_⟩⟩
    · rw [hother ho h, hhidden ho hk, hk] <;> rfl
    · rw [hpoll ho h, hhidden ho hk] <;> rfl
    · rw [hpoll ho h, hseen ho (by simp [hk])] <;> rfl
    · rw [hother ho h, hk, State.noReplyApplied, happlied, hseen ho (by simp [hk])] <;> rfl
    · rw [hother ho h, hk, State.noReplyApplied, happlied, hseen ho (by simp [hk])] <;> rfl
    · rcases ho with ho | ho | ho | ho | ho <;>
        rw [htold ho rfl (by simp), State.originEnded_untold (hkept ho rfl (by simp)) (ho ▸ rfl)]
    · rw [htold ho rfl (by simp), State.originEnded_plan htr ho]
    · rw [htold ho rfl (by simp)]
      have horphan := (u.missTaken_event t).orphan t d st i htrans ho
      rw [hobserved (ho ▸ rfl), htrans] at horphan
      rw [State.originEnded_untold (horphan.resolve_left htr) rfl]
    · rw [htold ho rfl (by simp), State.originEnded_replay (hkept ho rfl (by simp)) ho, State.replayEnded_due hv]
    · rw [htold ho rfl (by simp), State.originEnded_replay (hkept ho rfl (by simp)) ho, State.replayEnded_none hv]
    · rw [htold ho rfl (by simp), State.originEnded_forceOff (hkept ho rfl (by simp)) ho,
        State.forceOffEnded_over (.inr heng)]
    · rw [htold ho rfl (by simp), State.originEnded_forceOff (hkept ho rfl (by simp)) ho]
      exact congrArg (State.setTrans none) (State.forceOffEnded_due heng)
  have hexec {r : State} (h : s.timeoutExpires = r) : exec (.miss none) s = .next r := congrArg Host.Outcome.next h
  refine ⟨fun h => hexec ?_, fun t htrans => ?_⟩
  · simp only [State.timeoutExpires, h]
  · intro late
    refine ⟨fun h => hexec ?_, fun h hb => hexec ?_, fun h hb => ⟨_, hexec ?_, hmissed s t htrans⟩, fun f h => ?_⟩
    · simp only [State.timeoutExpires, htrans, h]
      rfl
    · simp only [State.timeoutExpires, htrans, h, hb, if_true]
    · simp only [State.timeoutExpires, htrans, h, hb, if_true]
      rfl
    · have hlate : exec (.miss (some f)) s = .next ((s.setTrans (some late)).receiveN f) :=
        congrArg Host.Outcome.next (State.lateFrame_timing htrans h f)
      refine ⟨fun _ _ => ⟨_, hlate, rfl⟩, fun hf hreply => ⟨_, ?_, hmissed _ late rfl⟩, fun hf => ⟨_, ?_, hmissed _ late rfl⟩⟩
      · rw [hlate]
        refine congrArg Host.Outcome.next ?_
        unfold State.receiveN
        rw [if_neg (by rw [hf]; decide)]
        exact (if_neg (show ¬ t.isReply f = true by rw [hreply]; decide)).trans (State.nonReplyEnded_expired rfl rfl)
      · rw [hlate]
        refine congrArg Host.Outcome.next ?_
        unfold State.receiveN
        rw [if_pos hf]
        exact State.nonReplyEnded_expired rfl rfl

end Sys2Proof.Machine
end

section
/-! The line arbiter (R133, R141, R146) and the room list (R143): O54. -/

namespace Sys2Proof.Machine

/-! ### The room list -/

/-- Nothing waits, or the queue has no place. -/
theorem State.fillRoom_still {s : State} (h : s.arbiter.room = [] ∨ 16 ≤ s.arbiter.queue.length) : s.fillRoom = s := by
  unfold State.fillRoom
  cases hroom : s.arbiter.room with
  | nil =>
    show s.setRoom [] = s
    rw [← hroom] <;> rfl
  | cons e es =>
    have hfull : ¬ s.queueHasRoom = true := by
      rw [hroom] at h
      simpa [State.queueHasRoom] using h.resolve_left (List.cons_ne_nil e es)
    unfold fillFrom
    rw [if_neg hfull, ← hroom] <;> rfl

theorem State.RoomFills.filled {s t : State} (h : s.RoomFills t) : t.arbiter.room = [] ∨ 16 ≤ t.arbiter.queue.length := by
  induction h with
  | full h => exact h
  | next _ _ _ _ ih => exact ih

/-! ### The deferred marks -/

theorem State.clearDeferred_eq (s : State) : s.clearDeferred =
    { s with gate := { s.gate with cells := s.gate.cells.map fun g => { g with deferred := false } } } := by
  have hfold (n : Nat) : n ≤ 64 → ∃ cells : Vector GateCell 64,
      (List.range n).foldl (fun u i => State.modGate i (fun c => { c with deferred := false }) u) s =
        { s with gate := { s.gate with cells := cells } } ∧
      ∀ i (hi : i < 64), cells[i] = if i < n then { s.gate.cells[i] with deferred := false } else s.gate.cells[i] := by
    induction n with
    | zero => exact fun _ => ⟨s.gate.cells, rfl, fun i hi => rfl⟩
    | succ n ih =>
      intro hn
      obtain ⟨cells, hstate, hcells⟩ := ih (Nat.le_of_succ_le hn)
      refine ⟨cells.setIfInBounds n { s.gate.cells[n] with deferred := false }, ?_, fun i hi => ?_⟩
      · have hcell : State.gateAt { s with gate := { s.gate with cells := cells } } n = s.gate.cells[n] := by
          rw [State.gateAt, Vector.getElem?_eq_getElem hn, Option.getD_some, hcells n hn, if_neg (Nat.lt_irrefl n)]
        rw [List.range_succ, List.foldl_append, hstate, List.foldl_cons, List.foldl_nil, State.modGate, hcell]
      · rw [Vector.getElem_setIfInBounds]
        split
        next heq => subst heq; rw [if_pos (Nat.lt_succ_self n)]
        next hne =>
          rw [hcells i hi]
          exact if_congr (by omega) rfl rfl
  obtain ⟨cells, hstate, hcells⟩ := hfold 64 (le_refl _)
  have hmap : cells = s.gate.cells.map fun g => { g with deferred := false } := by
    apply Vector.ext
    intro i hi
    rw [hcells i hi, if_pos hi, Vector.getElem_map]
  rw [← hmap]
  exact hstate

/-! ### The choice -/

section
variable {s : State}

theorem State.dueForceOff_some {d : Bool} {i : Nat} {r : RouteEntry} (hroute : s.routeAt i = some r)
    (hdue : (s.gateAt i).forceOffDue = true ∧ (s.gateAt i).deferred = d)
    (hfirst : ∀ j, j < i → ¬ ((s.gateAt j).forceOffDue = true ∧ (s.gateAt j).deferred = d)) : s.dueForceOff d = some i := by
  refine List.find?_range_eq_some.mpr ⟨by simpa using hdue, List.mem_range.mpr (State.routeAt_lt hroute), fun j hj => ?_⟩
  simpa [or_iff_not_imp_left] using hfirst j hj

theorem State.dueForceOff_none {d : Bool} (h : ∀ i, i < 64 → ¬ ((s.gateAt i).forceOffDue = true ∧ (s.gateAt i).deferred = d)) :
    s.dueForceOff d = none :=
  List.find?_eq_none.mpr fun i hi => by simpa using h i (List.mem_range.mp hi)

theorem State.arbitrate_busy (h : s.ports.trans.isSome = true ∨ s.ports.sending.isSome = true) : s.arbitrate = s := by
  refine if_neg fun hfree => ?_
  obtain ⟨htrans, hsending⟩ := State.nFree_iff.mp hfree
  rw [htrans, hsending] at h
  simp at h

theorem State.arbitrate_free (htrans : s.ports.trans = none) (hsending : s.ports.sending = none) :
    s.arbitrate = (s.choose.map s.sendChoice).getD s := by
  refine (if_pos (State.nFree_iff.mpr ⟨htrans, hsending⟩)).trans ?_
  cases s.choose <;> rfl

theorem State.choose_forceOff {i : Nat} (h : s.dueForceOff false = some i) : s.choose = some (.forceOff i) := by
  rw [State.choose, h]
  rfl

theorem State.choose_frame (h : s.dueForceOff false = none) {c : Choice} (hc : s.chooseFrame = some c) :
    s.choose = some c := by
  rw [State.choose, h, hc]
  rfl

theorem State.choose_idle (h : s.dueForceOff false = none) (hc : s.chooseFrame = none) :
    s.choose = (s.dueForceOff true).map Choice.forceOff := by
  rw [State.choose, h, hc]
  rfl

theorem State.chooseFrame_controller {c : CtlFrame} (hw : s.arbiter.waiting = some c)
    (h : s.gate.lock.isSome = true ∨
      (s.lockoutHeld = false ∧ (s.arbiter.lastServed = .injected ∨ s.arbiter.queue = []))) :
    s.chooseFrame = some (.controller c) := by
  unfold State.chooseFrame
  rcases h with h | ⟨hlockout, h | h⟩
  · simp [hw, h]
  · simp [hw, hlockout, h]
  · simp [hw, hlockout, h]

theorem State.chooseFrame_injected {q : QFrame} {rest : List QFrame} (hq : s.arbiter.queue = q :: rest)
    (hlock : s.gate.lock.isSome = false)
    (h : s.lockoutHeld = true ∨ s.arbiter.waiting = none ∨ s.arbiter.lastServed = .controller) :
    s.chooseFrame = some (.injected q) := by
  unfold State.chooseFrame
  rcases h with h | h | h
  · simp [hq, hlock, h]
  · simp [hq, hlock, h]
  · simp [hq, hlock, h]

theorem State.chooseFrame_none (h : (s.gate.lock.isSome = true ∧ s.arbiter.waiting = none) ∨
    (s.gate.lock.isSome = false ∧ s.lockoutHeld = true ∧ s.arbiter.queue = []) ∨
      (s.gate.lock.isSome = false ∧ s.arbiter.waiting = none ∧ s.arbiter.queue = [])) : s.chooseFrame = none := by
  unfold State.chooseFrame
  rcases h with ⟨hlock, hw⟩ | ⟨hlock, hlockout, hq⟩ | ⟨hlock, hw, hq⟩
  · simp [hlock, hw]
  · simp [hlock, hlockout, hq]
  · simp [hlock, hw, hq]

/-! ### The departure -/

/-- The departure rule, the tables and containment read before the frame was taken from its place. -/
theorem State.depart_eq {u : State} (htables : u.tables = s.tables) (hcontain : u.contain = s.contain) (f : Sys2Proof.Frame)
    {o : Origin} (ho : o.transparent = false) : u.depart f o =
      match s.findRoute f.dst f.chan with
      | some (i, r) =>
        if f.isOrder = true ∧ r.kind = .heater then
          if s.contain.engaged then u.openTrans { f with payload := [f.chan, 0, 0] } o
          else (u.modGate i fun g => { g with forceOffDue := false, deferred := false }).openTrans f o
        else u.openTrans f o
      | none => u.openTrans f o := by
  unfold State.depart
  rw [State.findRoute_of_tables htables, hcontain]
  cases s.findRoute f.dst f.chan with
  | none => exact ite_self _
  | some e =>
    by_cases horder : f.isOrder = true
    · simp only [horder, ho, true_and, if_true]
      rfl
    · rw [if_neg fun h => horder h.1]
      exact (if_neg fun h => horder h.1).symm

theorem State.openTrans_eq {u : State} (htables : u.tables = s.tables) (f : Sys2Proof.Frame) (o : Origin) :
    u.openTrans f o = (u.setSending (some f)).setTrans
      (some { req := f, origin := o, timeoutMs := s.replyTimeout, timing := false, begun := false, expired := false }) := by
  have htimeout : u.replyTimeout = s.replyTimeout := by rw [State.replyTimeout, htables, State.replyTimeout]
  rw [State.openTrans, htimeout]

theorem State.depart_transparent {f : Sys2Proof.Frame} {o : Origin} (ho : o.transparent = true) : s.depart f o = s.openTrans f o :=
  if_neg fun h => Bool.noConfusion (ho.symm.trans h.2)

theorem State.sendForceOff_eq {i : Nat} {r : RouteEntry} (h : s.routeAt i = some r) : s.sendForceOff i =
    (s.openTrans { dst := r.node, src := 62, kind := Kind.order, flags := { engine := true }, seq := s.ports.engineSeq,
                   payload := [r.chan, 0, 0] } (.forceOff i)).bumpSeq := by
  rw [State.sendForceOff, h]
  rfl

end

/-- Settles O54: the choice case by case, the departure rule on what is sent; the room list by its law. -/
theorem arbiterChoosesAndRoomListFills : Obligations.ArbiterChoosesAndRoomListFills := by
  refine ⟨fun s => ⟨fun h => congrArg Host.Outcome.next (State.arbitrate_busy h), fun htrans hsending => ?_⟩,
    fun s => ⟨⟨_, rfl, s.fillRoom_fills, s.fillRoom_fills.filled⟩, fun h => congrArg Host.Outcome.next (State.fillRoom_still h)⟩⟩
  intro due locked lockout sent departs cleared forceOff
  have hexec {o : Option Choice} {t : State} (ho : s.choose = o) (ht : (o.map s.sendChoice).getD s = t) :
      exec .arbiterChoice s = .next t := by
    refine congrArg Host.Outcome.next ?_
    rw [State.arbitrate_free htrans hsending, ho, ht]
  have hsent {u : State} (htables : u.tables = s.tables) (o : Sys2Proof.Frame) (origin : Origin) :
      u.openTrans o origin = sent o origin u := State.openTrans_eq htables o origin
  have hdeparts {u : State} (htables : u.tables = s.tables) (hcontain : u.contain = s.contain) (o : Sys2Proof.Frame)
      {origin : Origin} (hopaque : origin.transparent = false) : u.depart o origin = departs o origin u := by
    rw [State.depart_eq htables hcontain o hopaque]
    simp only [departs]
    cases s.findRoute o.dst o.chan with
    | none => exact hsent htables ..
    | some e => simp only [hsent htables, hsent (u := u.modGate _ _) htables]
  have hforceOff {i : Nat} {r : RouteEntry} (hroute : s.routeAt i = some r) : s.sendForceOff i = forceOff i r :=
    (State.sendForceOff_eq hroute).trans (congrArg State.bumpSeq (hsent rfl ..))
  refine ⟨fun i r hroute hdue hfirst =>
    hexec (State.choose_forceOff (State.dueForceOff_some hroute hdue hfirst)) (hforceOff hroute), fun hnone => ?_⟩
  have hidle := State.dueForceOff_none hnone
  refine ⟨fun c hw hturn => ?_, fun q rest hq hlock hturn => ?_, fun hnothing => ⟨fun hnone' => ?_, fun i r hroute hdue hfirst => ?_⟩⟩
  · intro served plain
    have hchoose := State.choose_frame hidle (State.chooseFrame_controller hw hturn)
    have hserved : ((s.setWaiting none).setServed .controller).clearDeferred = served := State.clearDeferred_eq _
    have htables : served.tables = s.tables := rfl
    have hcontain : served.contain = s.contain := rfl
    have hsend {o : Sys2Proof.Frame} (hout : c.outgoing = o) :
        s.sendChoice (.controller c) = served.depart o (.controller c) := by
      rw [← hserved, ← hout]
      rfl
    have hopaque {o : Sys2Proof.Frame} (hk : c.kind ≠ .transparent) (hout : c.outgoing = o) :
        exec .arbiterChoice s = .next (departs o (.controller c) served) :=
      hexec hchoose ((hsend hout).trans (hdeparts htables hcontain o (Origin.opaque_controller hk)))
    refine ⟨fun hk => hexec hchoose ?_, fun i hk => hopaque (by simp [hk]) ?_, fun i v hk => hopaque (by simp [hk]) ?_,
      fun i p hk => hopaque (by simp [hk]) ?_⟩
    · have hout : c.outgoing = plain := by rw [CtlFrame.outgoing, hk]
      rw [← hsent htables, ← State.depart_transparent (Origin.transparent_controller hk)]
      exact hsend hout
    · rw [CtlFrame.outgoing, hk]
    · rw [CtlFrame.outgoing, hk] <;> rfl
    · rw [CtlFrame.outgoing, hk]
  · have hchoose := State.choose_frame hidle (State.chooseFrame_injected hq hlock hturn)
    refine ⟨(s.setQueue rest).fillRoom, State.fillRoom_fills _, ?_⟩
    intro served
    have hframe := (State.GateFrame.refl (s.setQueue rest)).fillRoom
    have hserved : (((s.setQueue s.arbiter.queue.tail).fillRoom).setServed .injected).clearDeferred = served := by
      rw [State.clearDeferred_eq, hq] <;> rfl
    refine ⟨fun ho => hexec hchoose ?_, fun hphase hctl => hexec hchoose ?_⟩
    · show s.sendInjected q = _
      simp only [State.sendInjected, ho, hserved]
    · have hsend : s.sendInjected q = served.depart q.frame q.origin := by
        unfold State.sendInjected
        dsimp only
        rw [hserved]
        split
        next ho => exact absurd ho hphase
        next => rfl
      have htables : served.tables = s.tables := hframe.tables
      have hcontain : served.contain = s.contain := hframe.contain
      have hopaque : q.origin.transparent = false := by
        cases ho : q.origin with
        | controller c => exact absurd ho (hctl c)
        | _ => rfl
      exact hsend.trans (hdeparts htables hcontain q.frame hopaque)
  · refine hexec (State.choose_idle hidle (State.chooseFrame_none hnothing)) ?_
    rw [State.dueForceOff_none hnone'] <;> rfl
  · refine hexec (State.choose_idle hidle (State.chooseFrame_none hnothing)) ?_
    rw [State.dueForceOff_some hroute hdue hfirst]
    exact hforceOff hroute

end Sys2Proof.Machine
end

section
/-! The executor's evaluation (R90 to R94): O27. -/

namespace Sys2Proof.Machine

theorem State.orphanTrans_eq (d : Nat) (s : State) : s.orphanTrans d =
    { s with ports := { s.ports with trans := s.ports.trans.map (NodeTrans.orphaned d) } } := by
  have hsame {x : Option NodeTrans} (hx : s.ports.trans = x) : s = { s with ports := { s.ports with trans := x } } := by
    rw [← hx]
  unfold State.orphanTrans
  cases htrans : s.ports.trans with
  | none => exact hsame htrans
  | some t =>
    dsimp only [Option.map_some, NodeTrans.orphaned]
    cases ho : t.origin with
    | plan d' st i =>
      dsimp only
      split
      · rfl
      · exact hsame htrans
    | _ => exact hsame htrans

/-! ### Eligibility -/

section
variable {s : State} {c : Nat}

theorem State.eligible_iff (s : State) (b : Nat) :
    s.eligible b = true ↔ (s.latchAt b).state = .pending ∧ (s.classAt b).enable = true := by
  simp [State.eligible]

theorem State.firstEligible_some (h : c < 12 ∧ ((s.latchAt c).state = .pending ∧ (s.classAt c).enable = true) ∧
    ∀ b, b < c → ¬ ((s.latchAt b).state = .pending ∧ (s.classAt b).enable = true)) : s.firstEligible = some c := by
  obtain ⟨hc, hopen, hfirst⟩ := h
  refine List.find?_range_eq_some.mpr ⟨(s.eligible_iff c).mpr hopen, List.mem_range.mpr hc, fun b hb => ?_⟩
  rw [Bool.not_eq_true', ← Bool.not_eq_true, s.eligible_iff]
  exact hfirst b hb

theorem State.firstEligible_none (h : ∀ b, b < 12 → ¬ ((s.latchAt b).state = .pending ∧ (s.classAt b).enable = true)) :
    s.firstEligible = none :=
  List.find?_eq_none.mpr fun b hb => mt (s.eligible_iff b).mp (h b (List.mem_range.mp hb))

theorem State.running_nil (h : s.levels = []) : s.running = none := by
  rw [State.running, h]
  rfl

/-! ### Evaluation and what follows a level's end -/

theorem State.evaluate_idle (h : s.mgmt.engine ≠ .armed ∨ s.firstEligible = none) : s.evaluate = (none, s) := by
  unfold State.evaluate
  split
  next => rfl
  next harmed =>
    have hnone : s.firstEligible = none := h.resolve_left fun hne => harmed hne
    rw [hnone]

variable (hfirst : s.firstEligible = some c)
include hfirst

theorem State.evaluate_first (harmed : s.mgmt.engine = .armed) : s.evaluate =
    match s.running with
    | none => s.startPlan c .evaluate
    | some l => if c < l.cls ∧ s.levels.length < 3 then s.preempt l c else (none, s) := by
  unfold State.evaluate
  rw [if_neg (show ¬ s.engine ≠ .armed from not_not.mpr harmed), hfirst] <;> rfl

theorem State.evaluate_empty (harmed : s.mgmt.engine = .armed) (hrun : s.running = none) :
    s.evaluate = s.startPlan c .evaluate := by
  rw [State.evaluate_first hfirst harmed, hrun]

theorem State.evaluate_outranked (harmed : s.mgmt.engine = .armed) {l : Level} (hrun : s.running = some l)
    (h : ¬ (c < l.cls ∧ s.levels.length < 3)) : s.evaluate = (none, s) := by
  rw [State.evaluate_first hfirst harmed, hrun]
  exact if_neg h

theorem State.evaluate_preempts (harmed : s.mgmt.engine = .armed) {l : Level} (hrun : s.running = some l)
    (h : c < l.cls ∧ s.levels.length < 3) : s.evaluate = s.preempt l c := by
  rw [State.evaluate_first hfirst harmed, hrun]
  exact if_pos h

theorem State.afterEnd_starts (hrun : ∀ l, s.running = some l → c < l.cls) : s.afterEnd = s.startPlan c .afterEnd := by
  unfold State.afterEnd
  rw [hfirst]
  cases h : s.running with
  | none => rfl
  | some l => exact if_pos (hrun l h)

end

theorem State.afterEnd_resumes {s : State} {l : Level} (hrun : s.running = some l)
    (h : ∀ c, s.firstEligible = some c → l.cls ≤ c) :
    s.afterEnd = (some .startStep, s.notify .planResumed (word l.cls) (word l.step) noneHalf) := by
  unfold State.afterEnd
  rw [hrun]
  cases hfirst : s.firstEligible with
  | none => rfl
  | some c => exact if_neg (Nat.not_lt.mpr (h c hfirst))

theorem State.afterEnd_idle {s : State} (hrun : s.running = none) (hfirst : s.firstEligible = none) :
    s.afterEnd = (none, s) := by
  unfold State.afterEnd
  rw [hrun, hfirst]

/-! ### Suspension -/

/-- The running level lets go of its wait and its orders. -/
def State.letGo (b : List Level) (l : Level) (s : State) : State :=
  { s with
    levels := b ++ [{ l with wait := .none, tankPhase := 0, deadline := none }]
    arbiter := { s.arbiter with
      queue := s.arbiter.queue.filter fun q => match q.origin with
        | .plan d _ _ => d ≠ b.length
        | _ => true
      room := s.arbiter.room.filter fun e => match e with
        | .plan d _ _ _ => d ≠ b.length
        | _ => true } }

theorem State.suspend_eq {s : State} {b : List Level} {l : Level} (h : s.levels = b ++ [l]) (c : Nat) : s.suspend l c =
    ((s.letGo b l).fillRoom.orphanTrans b.length).notify .planSuspended (word l.cls) (word l.step) (word c) := by
  have hqueue : s.arbiter.queue.filter (fun q => !isPlanFrame b.length q) = (s.letGo b l).arbiter.queue := by
    refine List.filter_congr fun q _ => ?_
    unfold isPlanFrame
    cases q.origin <;> simp
  have hroom : s.arbiter.room.filter (fun e => !isPlanRoom b.length e) = (s.letGo b l).arbiter.room := by
    refine List.filter_congr fun e _ => ?_
    unfold isPlanRoom
    cases e <;> simp
  have hgo : (((s.modTop fun l => { l with wait := .none, tankPhase := 0, deadline := none }).setRoom
      (s.letGo b l).arbiter.room).setQueue (s.letGo b l).arbiter.queue) = s.letGo b l := by
    rw [State.modTop_of h]
    rfl
  unfold State.suspend
  dsimp only
  rw [State.topDepth_of h]
  refine congrArg (fun u => (State.orphanTrans b.length u).notify .planSuspended (word l.cls) (word l.step) (word c)) ?_
  rw [← hgo, ← hqueue, ← hroom]
  rfl

/-- A plan starts in a state whose tables, latches and number of levels are those of `s`. -/
theorem State.startPlan_like {s u : State} (htables : u.tables = s.tables) (hphase : u.ports.phase = s.ports.phase)
    (hlatches : u.latches = s.latches) (hlevels : u.levels.length = s.levels.length) {c p : Nat}
    (hp : s.selectCell c s.ports.phase = some p) (again : Task) : u.startPlan c again =
      (some .startStep, ((u.setLevels (u.levels ++
        [{ cls := c, plan := p, step := 0, wait := .none, tankPhase := 0, deadline := none, touched := [],
           cap := none, lockout := false, justBegun := true }])).setLatch c
        { s.latchAt c with state := .recovering }).notify .planStarted (word c) (word p) (word s.levels.length)) := by
  have hlatch : u.latchAt c = s.latchAt c := by rw [State.latchAt, hlatches, State.latchAt]
  have hcell : u.selectCell c u.ports.phase = some p := by rw [← hp, hphase, State.selectCell, htables, State.selectCell]
  rw [State.startPlan, hcell]
  dsimp only
  rw [State.pushLevel, hlatch, hlevels]

/-- Settles O27: by the eligible latch of highest priority and the running level. -/
theorem evaluationStartsTheFirstEligible : Obligations.EvaluationStartsTheFirstEligible := by
  intro s open_ first none_ failed pushed starts
  have hfailed (c : Nat) : s.failNoPlan c = failed c := rfl
  have hstart {c : Nat} {task : Task} (h : microStep task s = s.startPlan c task) : starts c task := by
    refine ⟨fun p hp => ?_, fun hp => ?_⟩ <;> rw [h, State.startPlan, hp] <;> rfl
  have hlowest {c c' : Nat} {l : Level} (hfirst : first c) (hc : l.cls ≤ c) (h : s.firstEligible = some c') : l.cls ≤ c' := by
    rw [State.firstEligible_some hfirst] at h
    exact Option.some.inj h ▸ hc
  refine ⟨fun h => State.evaluate_idle (h.imp_right State.firstEligible_none), fun c harmed hfirst hempty =>
      hstart (State.evaluate_empty (State.firstEligible_some hfirst) harmed (State.running_nil hempty)),
    fun c b l harmed hfirst hlevels => ⟨fun h => ?_, fun hc hroom => ⟨fun hp => ?_, fun p hp => ?_⟩⟩,
    fun c hfirst hempty => hstart (State.afterEnd_starts (State.firstEligible_some hfirst) fun l hl => ?_),
    fun c b l hfirst hlevels hc => hstart (State.afterEnd_starts (State.firstEligible_some hfirst) fun l' hl => ?_),
    fun b l hlevels h => State.afterEnd_resumes (State.running_of hlevels) fun c' hc' => ?_,
    fun hempty hnone => State.afterEnd_idle (State.running_nil hempty) (State.firstEligible_none hnone)⟩
  · refine State.evaluate_outranked (State.firstEligible_some hfirst) harmed (State.running_of hlevels) ?_
    rintro ⟨hlt, hroom⟩
    exact h.elim (Nat.not_le.mpr hlt) (Nat.not_le.mpr hroom)
  · show s.evaluate = _
    rw [State.evaluate_preempts (State.firstEligible_some hfirst) harmed (State.running_of hlevels) ⟨hc, hroom⟩,
      State.preempt, hp]
    dsimp only
    rw [State.startPlan, hp, hfailed]
  · refine ⟨(s.letGo b l).fillRoom, State.fillRoom_fills _, ?_⟩
    have hframe := (State.GateFrame.refl (s.letGo b l)).fillRoom
    show s.evaluate = _
    rw [State.evaluate_preempts (State.firstEligible_some hfirst) harmed (State.running_of hlevels) ⟨hc, hroom⟩,
      State.preempt, hp]
    dsimp only
    rw [State.suspend_eq hlevels, State.orphanTrans_eq]
    have hlength : (s.letGo b l).fillRoom.levels.length = s.levels.length := by
      rw [hframe.levels_length, hlevels]
      simp [State.letGo]
    refine State.startPlan_like (s := s) ?_ ?_ ?_ ?_ hp .evaluate
    · exact hframe.tables
    · exact hframe.phase
    · exact hframe.latches
    · exact hlength
  · rw [State.running_nil hempty] at hl
    cases hl
  · rw [State.running_of hlevels] at hl
    exact Option.some.inj hl ▸ hc
  · rcases h with hnone | ⟨c, hfirst, hc⟩
    · rw [State.firstEligible_none hnone] at hc'
      cases hc'
    · exact hlowest hfirst hc hc'

end Sys2Proof.Machine
end

section
/-! How the running level's step gives way: its completion, its fail target, and the ends of the level (R95, R96, R105,
R106): O58. -/

namespace Sys2Proof.Machine

theorem State.passOn_frame (i d : Nat) (s : State) : s.GateFrame (s.passOn i d) := by
  unfold State.passOn
  split
  · exact (State.GateFrame.refl s).handBackTo _ _ _
  · exact (State.GateFrame.refl s).toController _

/-- A gate operation, taken for one channel after another. -/
theorem State.foldl_gateFrame {f : State → Nat → State} (hf : ∀ u i, State.GateFrame u (f u i)) (is : List Nat) (s : State) :
    s.GateFrame (is.foldl f s) := by
  induction is generalizing s with
  | nil => exact .refl s
  | cons i is ih => exact (hf s i).trans' (ih _)

theorem State.setOwner_allRetained (is : List Nat) (s : State) :
    State.AllRetained is s (is.foldl (fun u i => u.setOwner i .retained) s) := by
  induction is generalizing s with
  | nil => rfl
  | cons i is ih => exact ⟨_, s.setOwner_changes i .retained, ih _⟩

/-! ### The ends of a level -/

/-- The level's latch settles, whatever became of the level itself meanwhile. -/
theorem State.finishLevel_of {s : State} {b : List Level} {x : Level} (h : s.levels = b ++ [x]) (l : Level) (ok : Bool)
    (at_ : Nat) : s.finishLevel l ok at_ = s.levelGone b.length l.cls ok at_ := by
  unfold State.finishLevel
  dsimp only
  rw [State.modTop_of h, State.orphanTrans_eq]
  simp only [State.topDepth, State.notify, State.notifyAt, State.setNotices_levels, State.setLatch_levels, State.setLevels_levels, List.length_append,
    List.length_singleton, Nat.add_sub_cancel, List.dropLast_concat]
  rw [State.levelGone, h, List.dropLast_concat]
  cases ok <;> rfl

section
variable {s : State} {b : List Level} {l : Level} (h : s.levels = b ++ [l])
include h

theorem State.waitFor_of (k : WaitKind) (phase : Nat) (deadline : Option Clock) : s.waitFor k phase deadline =
    s.setLevels (b ++ [{ l with wait := k, tankPhase := phase, deadline := deadline, justBegun := true }]) :=
  State.modTop_of h _

/-- A level that has handed its channels over ends, the gate having touched its wait at most. -/
theorem State.levelGone_after {u : State} (hframe : s.GateFrame u) (ok : Bool) (at_ : Nat) :
    u.finishLevel l ok at_ = u.levelGone b.length l.cls ok at_ := by
  obtain ⟨k, hlevels, hlength⟩ := hframe.levels_of h
  rw [State.finishLevel_of hlevels, hlength]

theorem State.endOk_of (at_ : Nat) : s.endOk at_ =
    (some .afterEnd, (((List.range 64).filter fun i => decide ((s.gateAt i).owner = .level b.length)).foldl
      (fun u i => u.passOn i b.length) s).levelGone b.length l.cls true at_) := by
  unfold State.endOk
  rw [State.running_of h]
  dsimp only
  rw [State.topDepth_of h, State.levelGone_after h (State.foldl_gateFrame (fun u i => u.passOn_frame i b.length) _ s)]
  rfl

theorem State.endFail_eq : s.endFail =
    (some .afterEnd, (((List.range 64).filter fun i => decide ((s.gateAt i).owner = .level b.length)).foldl
      (fun u i => u.setOwner i .retained) s).levelGone b.length l.cls false l.step) := by
  unfold State.endFail
  rw [State.running_of h]
  dsimp only
  rw [State.topDepth_of h,
    State.levelGone_after h (State.foldl_gateFrame (fun u i => (State.GateFrame.refl u).setOwner i .retained) _ s)]
  rfl

theorem State.endFail_of : ∃ u, State.LevelFails b.length l s u ∧ s.endFail = (some .afterEnd, u) :=
  ⟨_, ⟨_, State.setOwner_allRetained _ s, rfl⟩, State.endFail_eq h⟩

/-! ### The step gives way -/

theorem State.advance_next (hstep : l.step + 1 < 12) : s.advance = (some .startStep, s.setLevels
    (b ++ [{ l with step := l.step + 1, wait := .none, tankPhase := 0, deadline := none, justBegun := true }])) := by
  unfold State.advance
  rw [State.running_of h]
  dsimp only
  rw [if_pos hstep, State.waitFor_of h, State.modTop_of rfl]
  rfl

theorem State.advance_last (hstep : ¬ l.step + 1 < 12) : s.advance = (s.setLevels
    (b ++ [{ l with wait := .none, tankPhase := 0, deadline := none, justBegun := true }])).endOk 12 := by
  unfold State.advance
  rw [State.running_of h]
  dsimp only
  rw [if_neg hstep, State.waitFor_of h]

theorem State.moveToFail_step (t : Nat) : s.moveToFail (some t) = (some .startStep, s.setLevels
    (b ++ [{ l with step := t, wait := .none, tankPhase := 0, deadline := none, justBegun := true }])) := by
  unfold State.moveToFail
  dsimp only
  rw [State.waitFor_of h, State.modTop_of rfl]
  rfl

theorem State.moveToFail_end : ∃ u, State.LevelFails b.length l (s.setLevels
    (b ++ [{ l with wait := .none, tankPhase := 0, deadline := none, justBegun := true }])) u ∧
      s.moveToFail none = (some .afterEnd, u) := by
  obtain ⟨u, hfails, hend⟩ := State.endFail_of (s := s.setLevels
    (b ++ [{ l with wait := .none, tankPhase := 0, deadline := none, justBegun := true }])) rfl
  refine ⟨u, hfails, ?_⟩
  rw [State.moveToFail, State.waitFor_of h]
  exact hend

end

theorem State.beginStep_of {s : State} {b : List Level} {l : Level} (h : s.levels = b ++ [l]) {sl : PlanSlot}
    (hslot : s.planSlot l.plan l.step = some sl) : s.beginStep = s.beginSlot l sl := by
  unfold State.beginStep
  rw [State.running_of h]
  dsimp only
  rw [State.runningSlot, hslot]

/-- A WAIT_FOR without limit only waits. -/
theorem State.runTask_waitFor {s : State} {b : List Level} {l : Level} (h : s.levels = b ++ [l]) {sl : PlanSlot}
    (hslot : s.planSlot l.plan l.step = some sl) (hkind : sl.kind = .waitFor) (hlimit : sl.timeout = 0) :
    State.runTask (some .startStep, s) =
      s.setLevels (b ++ [{ l with wait := .reading, tankPhase := 0, deadline := none, justBegun := true }]) := by
  have hbegin : microStep .startStep s = (none, s.waitFor .reading 0 none) := by
    show s.beginStep = _
    rw [State.beginStep_of h hslot]
    simp only [State.beginSlot, hkind, State.beginWaitFor, hlimit, if_true]
  rw [← State.waitFor_of h]
  show runTasks 255 (microStep .startStep s).1 (microStep .startStep s).2 = _
  rw [hbegin] <;> rfl

/-- Settles O58: the deadline's step completes or fails. -/
theorem stepDeadlineMovesTheLevel : Obligations.StepDeadlineMovesTheLevel := by
  intro s b l sl hlevels hslot d at_ goes failed waitsForReading
  have hnotDue (h : dueAt l.deadline s.time.clock = false) : exec .stepDeadline s = .next s := by
    refine congrArg Host.Outcome.next ?_
    unfold State.deadlineReached
    rw [State.running_of hlevels]
    exact if_neg (by rw [State.now, h]; decide)
  have hdue (h : dueAt l.deadline s.time.clock = true) : exec .stepDeadline s =
      .next (if l.wait = .time then State.runTask s.advance else State.runTask (s.failStep l sl .timeout)) := by
    refine congrArg Host.Outcome.next ?_
    unfold State.deadlineReached
    rw [State.running_of hlevels]
    dsimp only
    rw [State.runningSlot, hslot]
    exact if_pos h
  have hfailedLevels : failed.levels = b ++ [l] := hlevels
  refine ⟨hnotDue, fun h => ⟨fun _ hwait => ⟨fun hstep => ?_, fun hstep => ?_⟩, fun hwaits => ?_⟩, fun u step nx hnx hkind hlimit => ?_⟩
  · rw [hdue h, if_pos hwait, State.advance_next hlevels hstep]
  · rw [hdue h, if_pos hwait, State.advance_last hlevels (by omega), State.endOk_of rfl]
    simp only [at_, ← hstep]
    rfl
  · have hexec : exec .stepDeadline s = .next (State.runTask (failed.moveToFail sl.failTarget)) := by
      rw [hdue h, if_neg (by rw [hwaits.1]; decide)]
      rfl
    refine ⟨fun t ht => ?_, fun ht => ?_⟩
    · rw [hexec, ht, State.moveToFail_step hfailedLevels]
    · obtain ⟨u, hfails, hend⟩ := State.moveToFail_end hfailedLevels
      exact ⟨u, hfails, by rw [hexec, ht, hend]⟩
  · exact State.runTask_waitFor (s := at_ step u) rfl hnx hkind hlimit

end Sys2Proof.Machine
end

section
/-! How the steps of a plan begin (R95, R98 to R104): O25. -/

namespace Sys2Proof.Machine

section
variable {s : State} {i : Nat} {r : RouteEntry} (hr : s.routeAt i = some r)
include hr

theorem State.planProtected_of : s.planProtected i = s.gate.planMask.getLsbD r.group := by
  rw [State.planProtected, hr]

theorem State.hasKind_of (k : RouteKind) : s.hasKind i k = decide (r.kind = k) := by
  rw [State.hasKind, hr]

theorem State.isSensor_of : s.isSensor i = r.kind.isSensor := by
  rw [State.isSensor, hr]

end

theorem State.planProtected_iff (s : State) (i : Nat) :
    s.planProtected i = true ↔ ∃ e, s.routeAt i = some e ∧ s.gate.planMask.getLsbD e.group = true := by
  unfold State.planProtected
  cases s.routeAt i <;> simp

/-- Some channel that a tank step would order is in the plan mask. -/
theorem State.tankProtected_iff (s : State) (w : TankWork) : s.tankProtected w = true ↔
    ∃ i, (w.heater = some i ∨ w.other = some i ∨ w.valve = some i) ∧
      ∃ e, s.routeAt i = some e ∧ s.gate.planMask.getLsbD e.group = true := by
  simp only [State.tankProtected, List.any_eq_true, List.mem_append, Option.mem_toList, or_assoc,
    State.planProtected_iff]

theorem State.tankWork_of {s : State} {sl : PlanSlot} {z : ZoneEntry} (hz : s.zoneAt sl.subject.toNat = some z) :
    s.tankWork sl = some (z.tankWork (decide (sl.kind = .refill))) := by
  rw [State.tankWork, hz]
  rfl

section
variable {s : State} {b : List Level} {l : Level} (h : s.levels = b ++ [l])
include h

/-! ### A step that fails -/

theorem State.failStep_step {sl : PlanSlot} {t : Nat} (ht : sl.failTarget = some t) (x : Level) (r : FailReason) :
    s.failStep x sl r = (some .startStep, (s.notify .stepFailed (word x.cls) (word x.step) (word r.code)).setLevels
      (b ++ [{ l with step := t, wait := .none, tankPhase := 0, deadline := none, justBegun := true }])) := by
  rw [State.failStep, ht]
  exact State.moveToFail_step (s := s.notifyFailed x r) h t

theorem State.failStep_end {sl : PlanSlot} (ht : sl.failTarget = none) (x : Level) (r : FailReason) :
    ∃ u, State.LevelFails b.length l ((s.notify .stepFailed (word x.cls) (word x.step) (word r.code)).setLevels
      (b ++ [{ l with wait := .none, tankPhase := 0, deadline := none, justBegun := true }])) u ∧
      s.failStep x sl r = (some .afterEnd, u) := by
  rw [State.failStep, ht]
  exact State.moveToFail_end (s := s.notifyFailed x r) h

/-! ### A channel given up -/

theorem State.releaseChannel_of (i : Nat) : s.releaseChannel i =
    if (s.gateAt i).owner = .level b.length then
      (s.setLevels (b ++ [{ l with touched := l.touched.filter fun e => e.1 ≠ i }])).passOn i b.length
    else s.setLevels (b ++ [{ l with touched := l.touched.filter fun e => e.1 ≠ i }]) := by
  unfold State.releaseChannel
  dsimp only
  rw [State.topDepth_of h, State.modTop_of h]
  rfl

theorem State.releaseChannel_kept {i : Nat} (howner : (s.gateAt i).owner ≠ .level b.length) (hstep : l.step + 1 < 12) :
    (s.releaseChannel i).advance = (some .startStep, s.setLevels (b ++ [{ l with
      touched := l.touched.filter fun e => e.1 ≠ i, step := l.step + 1, wait := .none, tankPhase := 0, deadline := none,
      justBegun := true }])) := by
  rw [State.releaseChannel_of h, if_neg howner]
  exact State.advance_next (l := { l with touched := l.touched.filter fun e => e.1 ≠ i }) rfl hstep

theorem State.releaseChannel_passed {i : Nat} (howner : (s.gateAt i).owner = .level b.length) (hstep : l.step + 1 < 12) :
    let given : Level := { l with touched := l.touched.filter fun e => e.1 ≠ i }
    let u := (s.setLevels (b ++ [given])).passOn i b.length
    (s.releaseChannel i).advance = (some .startStep, u.setLevels (u.levels.dropLast ++
      [{ given with step := l.step + 1, wait := .none, tankPhase := 0, deadline := none, justBegun := true }])) := by
  intro given u
  obtain ⟨k, hlevels, _⟩ := ((s.setLevels (b ++ [given])).passOn_frame i b.length).levels_of (b := b) (l := given) rfl
  rw [State.releaseChannel_of h, if_pos howner]
  exact State.advance_next (s := u) (l := { given with wait := k }) hlevels hstep

/-! ### Lockout -/

theorem State.lockoutOn_locks (hheld : s.lockoutHeld = true) : s.lockoutOn = s.setLevels (b ++ [{ l with lockout := true }]) := by
  unfold State.lockoutOn
  dsimp only
  rw [if_pos hheld, State.modTop_of h]

theorem State.lockoutOn_withdraws (hheld : s.lockoutHeld = false) :
    s.lockoutOn = (s.setLevels (b ++ [{ l with lockout := true }])).withdrawForLockout := by
  unfold State.lockoutOn
  dsimp only
  rw [if_neg (by rw [hheld]; decide), State.modTop_of h]

end

theorem State.withdrawForLockout_still {s : State} (h : ∀ c, s.arbiter.waiting = some c → c.kind = .transparent) :
    s.withdrawForLockout = s := by
  unfold State.withdrawForLockout
  split
  next req i v hw => cases h _ hw
  next req i hw => cases h _ hw
  next req i p hw => cases h _ hw
  next => rfl

section
variable {s : State} {c : CtlFrame} (hw : s.arbiter.waiting = some c)
include hw

theorem State.withdrawForLockout_order {i : Nat} {v : Half} (hk : c.kind = .order i v) :
    s.withdrawForLockout = (s.setWaiting none).reply (gateAck c.req 4 (s.imageAt i).applied) := by
  obtain ⟨req, kind⟩ := c
  cases hk
  unfold State.withdrawForLockout
  rw [hw]
  rfl

theorem State.withdrawForLockout_protected {i : Nat} {p : Sys2Proof.Frame} (hk : c.kind = .protectedPoll i p) :
    s.withdrawForLockout = (s.setWaiting none).reply (gateAck c.req 3 (s.imageAt i).applied) := by
  obtain ⟨req, kind⟩ := c
  cases hk
  unfold State.withdrawForLockout
  rw [hw]
  rfl

theorem State.withdrawForLockout_poll {i : Nat} (hk : c.kind = .poll i) :
    s.withdrawForLockout = (s.setWaiting none).reply (s.imageReply i c.req) := by
  obtain ⟨req, kind⟩ := c
  cases hk
  unfold State.withdrawForLockout
  rw [hw]

end

theorem State.levelGone_levels_length (d c : Nat) (ok : Bool) (at_ : Nat) (s : State) :
    (s.levelGone d c ok at_).levels.length = s.levels.length - 1 := List.length_dropLast

theorem State.levelGone_latchAt {c : Nat} (hc : c < 12) (d : Nat) (ok : Bool) (at_ : Nat) (s : State) :
    (s.levelGone d c ok at_).latchAt c =
      { s.latchAt c with state := if ok then .resolved else .failed, ending := some (if ok then .ok else .fail) } := by
  simp [State.levelGone, State.latchAt, hc]

/-! ### The steps, kind by kind -/

section
variable {s : State} {b : List Level} {l : Level} {sl : PlanSlot} (h : s.levels = b ++ [l])
  (hslot : s.planSlot l.plan l.step = some sl)
include h hslot

theorem microStep_slot : microStep .startStep s = s.beginSlot l sl := State.beginStep_of h hslot

theorem microStep_capLine (hkind : sl.kind = .capLine) (hstep : l.step + 1 < 12) : microStep .startStep s =
    (some .startStep, s.setLevels (b ++ [{ l with cap := some sl.value.toNat, step := l.step + 1, wait := .none,
                                                  tankPhase := 0, deadline := none, justBegun := true }])) := by
  rw [microStep_slot h hslot, State.beginSlot, hkind]
  dsimp only
  rw [State.modTop_of h]
  exact State.advance_next (l := { l with cap := some sl.value.toNat }) rfl hstep

theorem microStep_lockoutOff (hkind : sl.kind = .lockout) (hvalue : sl.value = 0) (hstep : l.step + 1 < 12) :
    microStep .startStep s = (some .startStep, s.setLevels (b ++ [{ l with
      lockout := false, step := l.step + 1, wait := .none, tankPhase := 0, deadline := none, justBegun := true }])) := by
  rw [microStep_slot h hslot, State.beginSlot, hkind]
  dsimp only
  rw [if_pos hvalue, State.modTop_of h]
  exact State.advance_next (l := { l with lockout := false }) rfl hstep

/-- LOCKOUT on, with what it leaves of the C-port. -/
theorem microStep_lockoutOn (hkind : sl.kind = .lockout) (hvalue : sl.value ≠ 0) (hstep : l.step + 1 < 12) {u : State}
    (hon : s.lockoutOn = u.setLevels (b ++ [{ l with lockout := true }])) :
    microStep .startStep s = (some .startStep, u.setLevels (b ++ [{ l with
      lockout := true, step := l.step + 1, wait := .none, tankPhase := 0, deadline := none, justBegun := true }])) := by
  rw [microStep_slot h hslot, State.beginSlot, hkind]
  dsimp only
  rw [if_neg hvalue, hon]
  exact State.advance_next (l := { l with lockout := true }) rfl hstep

theorem microStep_check (hkind : sl.kind = .check) : microStep .startStep s =
    if s.classMatches (· = l.cls) then s.moveToFail sl.failTarget else s.advance := by
  rw [microStep_slot h hslot, State.beginSlot, hkind]

theorem microStep_set (hkind : sl.kind = .set) {r : RouteEntry} (hr : s.routeAt sl.subject.toNat = some r) :
    microStep .startStep s =
      if s.gate.planMask.getLsbD r.group = true then s.failStep l sl .protectedGroup
      else if r.kind = .heater ∧ sl.value ≠ 0 ∧ s.contain.engaged = true then s.failStep l sl .inhibited
      else (none, s.placeOrder sl.subject.toNat sl.value 0) := by
  rw [microStep_slot h hslot, State.beginSlot, hkind]
  dsimp only
  rw [State.beginSet, State.planProtected_of hr, State.hasKind_of hr]
  simp only [decide_eq_true_eq]

theorem microStep_tank (hkind : sl.kind = .drain ∨ sl.kind = .refill) {w : TankWork} (hw : s.tankWork sl = some w) :
    microStep .startStep s =
      if s.tankProtected w then s.failStep l sl .protectedGroup else (none, s.tankStart w) := by
  rw [microStep_slot h hslot, State.beginSlot]
  rcases hkind with hkind | hkind <;> rw [hkind] <;> dsimp only <;> rw [State.beginTank, hw]

theorem microStep_line {i : Nat} (hi : s.conveyorRef = some i) :
    (sl.kind = .holdLine → microStep .startStep s = (none, s.placeOrder i 0 0)) ∧
    (sl.kind = .runLine → microStep .startStep s = (none, s.placeOrder i sl.value 0)) := by
  refine ⟨fun hkind => ?_, fun hkind => ?_⟩
  · rw [microStep_slot h hslot, State.beginSlot, hkind]
    dsimp only
    rw [State.orderLine, hi]
  · rw [microStep_slot h hslot, State.beginSlot, hkind]
    dsimp only
    rw [State.orderLine, hi]

/-- RELEASE, and RELEASE_LINE with the level's cap gone. -/
theorem microStep_release {i : Nat}
    (hi : (sl.kind = .release ∧ i = sl.subject.toNat) ∨ (sl.kind = .releaseLine ∧ s.conveyorRef = some i)) :
    microStep .startStep s =
      ((s.setLevels (b ++ [{ l with cap := if sl.kind = .releaseLine then none else l.cap }])).releaseChannel i).advance := by
  rw [microStep_slot h hslot, State.beginSlot]
  rcases hi with ⟨hkind, rfl⟩ | ⟨hkind, hi⟩
  · have hsame : s.setLevels (b ++ [{ l with cap := l.cap }]) = s := by rw [State.setLevels, ← h]
    have hcap : (if StepKind.release = .releaseLine then none else l.cap) = l.cap := if_neg (by decide)
    rw [hkind]
    dsimp only
    rw [hcap, hsame]
  · have hline : s.releaseLine = (s.setLevels (b ++ [{ l with cap := none }])).releaseChannel i := by
      rw [State.releaseLine, hi, State.modTop_of h]
    rw [hkind, if_pos rfl, hline]

end

/-- Settles O25: each kind of step by its own rule. -/
theorem planStepsBegin : Obligations.PlanStepsBegin := by
  intro s b l hlevels d next wait failed ended refused masked orders
  have hrefused {sl : PlanSlot} {r : FailReason} {code : Half} (hcode : word r.code = code)
      (hfail : microStep .startStep s = s.failStep l sl r) : refused sl.failTarget code := by
    subst hcode
    refine ⟨fun t ht => hfail.trans (State.failStep_step hlevels ht l r), fun ht => ?_⟩
    obtain ⟨u, hfails, hend⟩ := State.failStep_end hlevels ht l r
    exact ⟨u, hfails, hfail.trans hend⟩
  have horders {i : Nat} {v : Half} {phase : Nat} (hplace : microStep .startStep s = (none, s.placeOrder i v phase)) :
      orders i v phase := ⟨_, hplace, State.placeOrder_placed hlevels i v phase⟩
  refine ⟨fun hslot => ?_, fun sl hslot => ⟨fun hstep => ⟨fun hkind => microStep_capLine (l := l) hlevels hslot hkind hstep,
    fun hkind => ?_, fun hkind => ?_, fun hkind hvalue => microStep_lockoutOff (l := l) hlevels hslot hkind hvalue hstep,
    fun hkind hvalue => ?_, fun hkind hno => ?_, fun hkind hlimit => ?_, fun i hi => ?_⟩,
    fun t hkind ht hmatch => ?_, fun hkind hlimit => ?_, fun hkind hlimit => ?_, fun hkind hlimit => ?_,
    fun i hkind hi => ?_, fun i hkind hi => ?_, fun r hkind hr => ?_, fun z hkind hz => ?_⟩⟩
  · have hbegin : microStep .startStep s = ((s.notify .stepFailed (word l.cls) (word l.step) 6).setLevels
        (b ++ [{ l with wait := .none, tankPhase := 0, deadline := none, justBegun := true }])).endFail := by
      show s.beginStep = _
      unfold State.beginStep
      rw [State.running_of hlevels]
      dsimp only
      rw [State.runningSlot, hslot]
      exact congrArg State.endFail (State.waitFor_of (s := s.notifyFailed l .badStep) hlevels .none 0 none)
    have hend := State.endFail_of (s := (s.notify .stepFailed (word l.cls) (word l.step) 6).setLevels
      (b ++ [{ l with wait := .none, tankPhase := 0, deadline := none, justBegun := true }])) rfl
    refine ⟨?_, fun hcls => ?_⟩
    · obtain ⟨u, hfails, hu⟩ := hend
      exact ⟨u, hfails, hbegin.trans hu⟩
    · rw [hbegin, State.endFail_eq (b := b)
        (l := { l with wait := .none, tankPhase := 0, deadline := none, justBegun := true }) rfl]
      have hframe := State.foldl_gateFrame (f := fun u i => u.setOwner i .retained)
        (fun u i => (State.GateFrame.refl u).setOwner i .retained)
      refine ⟨?_, ?_⟩
      · rw [State.levelGone_levels_length, (hframe _ _).levels_length]
        simp
      · refine (State.levelGone_latchAt hcls ..).trans ?_
        rw [State.latchAt, (hframe _ _).latches]
        rfl
  · rw [microStep_slot hlevels hslot, State.beginSlot, hkind]
    exact State.advance_next (s := s.notify .planNote (word l.cls) (half 0 sl.subject) sl.value) hlevels hstep
  · rw [microStep_slot hlevels hslot, State.beginSlot, hkind]
    exact State.advance_next (s := s.markRerun sl.subject.toNat sl.value.toNat) hlevels hstep
  · intro held locks answers
    have hlocks {u : State} (hon : s.lockoutOn = u.setLevels (b ++ [{ l with lockout := true }])) : locks u :=
      microStep_lockoutOn hlevels hslot hkind hvalue hstep hon
    have hanswers {f : Sys2Proof.Frame} (hnot : held = false)
        (hdraw : (s.setLevels (b ++ [{ l with lockout := true }])).withdrawForLockout =
          ((s.setLevels (b ++ [{ l with lockout := true }])).setWaiting none).reply f) : answers f :=
      hlocks ((State.lockoutOn_withdraws hlevels hnot).trans hdraw)
    have hwaits {c : CtlFrame} (hw : s.arbiter.waiting = some c) (x : List Level) :
        (s.setLevels x).arbiter.waiting = some c := hw
    have hstill (hnot : held = false) (h : ∀ c, s.arbiter.waiting = some c → c.kind = .transparent) : locks s :=
      hlocks ((State.lockoutOn_withdraws hlevels hnot).trans (State.withdrawForLockout_still h))
    refine ⟨fun h => ?_, fun c hnot hw => ⟨fun hk => hstill hnot fun c' hc' => ?_, fun i w hk =>
        hanswers hnot (State.withdrawForLockout_order (hwaits hw _) hk), fun i p hk =>
        hanswers hnot (State.withdrawForLockout_protected (hwaits hw _) hk), fun i r hk hr => ?_⟩⟩
    · rcases h with h | h
      · exact hlocks (State.lockoutOn_locks hlevels h)
      · cases hheld : held with
        | true => exact hlocks (State.lockoutOn_locks hlevels hheld)
        | false => exact hstill hheld fun c hc => absurd (h.symm.trans hc) (Option.some_ne_none c).symm
    · rw [hw] at hc'
      exact Option.some.inj hc' ▸ hk
    · intro image
      have hpoll {f : Sys2Proof.Frame} (hf : s.imageReply i c.req = f) : answers f := by
        subst hf
        exact hanswers hnot (State.withdrawForLockout_poll (hwaits hw _) hk)
      refine ⟨fun hsensor => hpoll ?_, fun hsensor => hpoll ?_⟩
      · rw [State.imageReply, State.isSensor_of hr, if_pos hsensor]
        simp only [image]
        cases (s.imageAt i).status <;> rfl
      · rw [State.imageReply, State.isSensor_of hr, hsensor]
        rfl
  · rw [microStep_check hlevels hslot hkind, if_neg ?_, State.advance_next hlevels hstep]
    rw [State.classMatches_iff]
    rintro ⟨g, e, hg, he, hcls, hlast⟩
    exact hno g e hg he (of_decide_eq_true hcls) hlast
  · rw [microStep_slot hlevels hslot, State.beginSlot, hkind]
    dsimp only
    rw [State.beginWaitTime, if_pos hlimit, State.advance_next hlevels hstep]
  · intro given
    rw [microStep_release hlevels hslot hi]
    exact ⟨fun howner => State.releaseChannel_kept (s := s.setLevels _) rfl howner hstep,
      fun howner => State.releaseChannel_passed (s := s.setLevels _) rfl howner hstep⟩
  · rw [microStep_check hlevels hslot hkind, if_pos ?_, ht, State.moveToFail_step hlevels]
    obtain ⟨g, e, hg, he, hcls, hlast⟩ := hmatch
    exact (s.classMatches_iff _).mpr ⟨g, e, hg, he, decide_eq_true hcls, hlast⟩
  · rw [microStep_slot hlevels hslot, State.beginSlot, hkind]
    dsimp only
    rw [State.beginWaitFor, if_pos hlimit, State.waitFor_of hlevels]
  · rw [microStep_slot hlevels hslot, State.beginSlot, hkind]
    dsimp only
    rw [State.beginWaitFor, if_neg hlimit, State.waitFor_of hlevels]
    rfl
  · rw [microStep_slot hlevels hslot, State.beginSlot, hkind]
    dsimp only
    rw [State.beginWaitTime, if_neg hlimit, State.waitFor_of hlevels]
    rfl
  · exact horders ((microStep_line hlevels hslot hi).1 hkind)
  · exact horders ((microStep_line hlevels hslot hi).2 hkind)
  · have hset := microStep_set hlevels hslot hkind hr
    refine ⟨fun hmask => hrefused (r := .protectedGroup) rfl ?_, fun hmask hheater hvalue heng =>
      hrefused (r := .inhibited) rfl ?_, fun hmask hfree => horders ?_⟩
    · rw [hset, if_pos hmask]
    · rw [hset, if_neg (by rw [hmask]; decide), if_pos ⟨hheater, hvalue, heng⟩]
    · rw [hset, if_neg (by rw [hmask]; decide), if_neg ?_]
      rintro ⟨hheater, hvalue, heng⟩
      rcases hfree with h | h | h
      · exact h hheater
      · exact hvalue h
      · rw [heng] at h
        cases h
  · intro other valve barred
    have hwork := State.tankWork_of hz
    have htank := microStep_tank hlevels hslot hkind hwork
    generalize hw : z.tankWork (decide (sl.kind = .refill)) = w at hwork htank
    have hheater : w.heater = z.heater := by rw [← hw, ZoneEntry.tankWork]; split <;> rfl
    have hother : w.other = other := by
      rw [← hw, ZoneEntry.tankWork]
      rcases hkind with hkind | hkind <;> simp [other, hkind]
    have hvalve : w.valve = valve := by
      rw [← hw, ZoneEntry.tankWork]
      rcases hkind with hkind | hkind <;> simp [valve, hkind]
    have hbarred : s.tankProtected w = true ↔ barred := by
      rw [State.tankProtected_iff, hheater, hother, hvalve]
    refine ⟨fun hb => hrefused (r := .protectedGroup) rfl ?_, fun hb => ⟨fun i hi => horders ?_, fun i hnone hi => horders ?_,
      fun i hnone hnone' hi => horders ?_⟩⟩
    · rw [htank, if_pos (hbarred.mpr hb)]
    · rw [htank, if_neg (mt hbarred.mp hb), State.tankStart, hheater, hi]
    · rw [htank, if_neg (mt hbarred.mp hb), State.tankStart, hheater, hnone]
      dsimp only
      rw [State.tankOther, hother, hi]
    · rw [htank, if_neg (mt hbarred.mp hb), State.tankStart, hheater, hnone]
      dsimp only
      rw [State.tankOther, hother, hnone']
      dsimp only
      rw [State.tankOpen, hvalve, hi]

end Sys2Proof.Machine
end

section
/-! A channel passes on (R99, R105, R137, R139): part of O60. -/

namespace Sys2Proof.Machine

/-- A level of the list holds this touched value for the channel. -/
def Lists (levels : List Level) (i k : Nat) (v : Half) : Prop := ∃ x, levels[k]? = some x ∧ touchedValue i x.touched = some v

section
variable {levels : List Level} {i d : Nat}

theorem lists_iff (levels : List Level) (i k : Nat) (v : Half) :
    Lists levels i k v ↔ (levels[k]?.bind fun l => touchedValue i l.touched) = some v := by
  rw [Option.bind_eq_some_iff] <;> rfl

theorem nearestTouch_none (h : ∀ m w, m < d → ¬ Lists levels i m w) : nearestTouch levels i d = none := by
  induction d with
  | zero => rfl
  | succ d ih =>
    have hnone : (levels[d]?.bind fun l => touchedValue i l.touched) = none :=
      Option.eq_none_iff_forall_ne_some.mpr fun w hw => h d w (Nat.lt_succ_self d) ((lists_iff ..).mpr hw)
    rw [nearestTouch, hnone]
    exact ih fun m w hm => h m w (Nat.lt_succ_of_lt hm)

theorem nearestTouch_some {k : Nat} {v : Half} (hk : k < d) (hv : Lists levels i k v)
    (h : ∀ m w, k < m → m < d → ¬ Lists levels i m w) : nearestTouch levels i d = some (k, v) := by
  induction d with
  | zero => exact absurd hk (Nat.not_lt_zero k)
  | succ d ih =>
    rw [nearestTouch]
    rcases Nat.lt_succ_iff_lt_or_eq.mp hk with hlt | rfl
    · have hnone : (levels[d]?.bind fun l => touchedValue i l.touched) = none :=
        Option.eq_none_iff_forall_ne_some.mpr fun w hw => h d w hlt (Nat.lt_succ_self d) ((lists_iff ..).mpr hw)
      rw [hnone]
      exact ih hlt fun m w hkm hm => h m w hkm (Nat.lt_succ_of_lt hm)
    · rw [(lists_iff ..).mp hv]

end

/-! ### The gate's value after a gate operation -/

/-- The cap in force does not depend on the levels' waits. -/
theorem minCap_waits (ls : List Level) : minCap (ls.map fun l => { l with wait := .none }) = minCap ls := by
  induction ls with
  | nil => rfl
  | cons l ls ih =>
    rw [List.map_cons, minCap, minCap, ih]

theorem State.GateFrame.capInForce {s t : State} (h : s.GateFrame t) : t.capInForce = s.capInForce := by
  rw [State.capInForce, State.capInForce, ← minCap_waits t.levels, h.levels, minCap_waits]

theorem State.queueHasRoom_of {s : State} (h : s.arbiter.queue.length < 16) : s.queueHasRoom = true := decide_eq_true h

theorem State.queueHasRoom_full {s : State} (h : 16 ≤ s.arbiter.queue.length) : ¬ s.queueHasRoom = true :=
  fun hroom => Nat.not_lt.mpr h (of_decide_eq_true hroom)

theorem State.GateFrame.gateValue {s t : State} (h : s.GateFrame t) (i : Nat) (r : RouteEntry) (v : Half) :
    t.gateValue i r v = s.gateValue i r v := by
  unfold State.gateValue
  rw [h.capInForce, h.contain, State.conveyorRef, h.tables, State.conveyorRef]

theorem State.GateFrame.routeAt {s t : State} (h : s.GateFrame t) (i : Nat) : t.routeAt i = s.routeAt i := by
  rw [State.routeAt, h.tables, State.routeAt]

/-! ### Handed to a suspended level, or back to CONTROLLER -/

section
variable {s : State} {i : Nat} {r : RouteEntry} (hi : i < 64) (hr : s.routeAt i = some r)
include hi hr

theorem State.handBackTo_of (k : Nat) (v : Half) : ∃ u, State.OwnerChanges i (.level k) s u ∧
    (u.arbiter.queue.length < 16 →
      s.handBackTo i k v = (u.orderAtTail r v (.handBack i)).modGate i fun g => { g with handBack := none }) ∧
    (16 ≤ u.arbiter.queue.length →
      s.handBackTo i k v = (u.modGate i fun g => { g with handBack := some v }).setRoom (u.arbiter.room ++ [.handBack i])) := by
  refine ⟨s.setOwner i (.level k), s.setOwner_changes i _, fun hroom => ?_, fun hfull => ?_⟩
  · have hroute := ((State.GateFrame.refl s).setOwner i (.level k)).routeAt i
    unfold State.handBackTo
    dsimp only
    generalize s.setOwner i (.level k) = u at hroom hroute ⊢
    have hvalue : ((u.modGate i fun g => { g with handBack := some v }).gateAt i).handBack = some v := by
      rw [State.gateAt_modGate, if_pos ⟨rfl, hi⟩]
    rw [if_pos (State.queueHasRoom_of (s := u.modGate i _) hroom), State.appendHandBack, hvalue]
    dsimp only
    rw [State.appendOrder_eq (s := u.modGate i _) (hroute.trans hr)]
    exact (State.modGate_modGate i (fun g => { g with handBack := some v }) (fun g => { g with handBack := none })
      (u.orderAtTail r v (.handBack i)))
  · exact if_neg (State.queueHasRoom_full (s := (s.setOwner i (.level k)).modGate i _) hfull)

theorem State.toController_of : ∃ u, State.OwnerChanges i .controller s u ∧
    ((∀ w, (u.gateAt i).held ≠ .held w) → s.toController i = u) ∧
    ∀ w, (u.gateAt i).held = .held w →
      let due := u.modGate i fun g => { g with held := .replayDue w }
      (u.arbiter.queue.length < 16 → s.gate.ctlMask.getLsbD r.group = true →
        s.toController i = u.modGate i fun g => { g with held := .empty }) ∧
      (u.arbiter.queue.length < 16 → s.gate.ctlMask.getLsbD r.group = false →
        s.toController i = due.orderAtTail r (s.gateValue i r w) (.replay i)) ∧
      (16 ≤ u.arbiter.queue.length → s.toController i = due.setRoom (u.arbiter.room ++ [.replay i])) := by
  refine ⟨s.setOwner i .controller, s.setOwner_changes i _, ?_⟩
  have hframe := (State.GateFrame.refl s).setOwner i .controller
  have hroute := hframe.routeAt i
  have hvalue := hframe.gateValue i r
  have hmask := hframe.ctlMask
  unfold State.toController
  dsimp only
  generalize s.setOwner i .controller = u at hroute hvalue hmask ⊢
  refine ⟨fun hnone => ?_, fun w hw => ?_⟩
  · split
    next w hw => exact absurd hw (hnone w)
    next => rfl
  · rw [hw]
    dsimp only
    set due := u.modGate i fun g => { g with held := .replayDue w }
    have hheld : (due.gateAt i).held = .replayDue w := by
      rw [State.gateAt_modGate, if_pos ⟨rfl, hi⟩]
    have hdue : due.routeAt i = some r := hroute.trans hr
    have hdecide : due.decideReplay i = if s.gate.ctlMask.getLsbD r.group = true then
        due.modGate i fun g => { g with held := .empty } else due.orderAtTail r (s.gateValue i r w) (.replay i) := by
      rw [State.decideReplay, hheld, hdue]
      dsimp only
      rw [State.ctlProtected, State.clamped_inhibited, State.appendOrder_eq hdue, ← hvalue, ← hmask] <;> rfl
    refine ⟨fun hroom hm => ?_, fun hroom hm => ?_, fun hfull => ?_⟩
    · refine (if_pos (State.queueHasRoom_of (s := due) hroom)).trans (hdecide.trans ((if_pos hm).trans ?_))
      exact State.modGate_modGate ..
    · exact (if_pos (State.queueHasRoom_of (s := due) hroom)).trans (hdecide.trans (if_neg (by rw [hm]; decide)))
    · exact if_neg (State.queueHasRoom_full (s := due) hfull)

end

end Sys2Proof.Machine
end

section
/-! How a plan's waits and levels end (R97, R100 to R106): O60. -/

namespace Sys2Proof.Machine

theorem OrderEnd.reason_code (e : OrderEnd) : word e.reason.code = if e = .noReply then 4 else 3 := by
  cases e <;> rfl

theorem State.runTask_none (s : State) : State.runTask (none, s) = s := rfl

/-- The fields of the tank work, DRAIN and REFILL told apart. -/
theorem ZoneEntry.tankWork_fields (z : ZoneEntry) (refill : Bool) :
    (z.tankWork refill).heater = z.heater ∧ (z.tankWork refill).other = (if refill then z.drain else z.inlet) ∧
    (z.tankWork refill).valve = (if refill then z.inlet else z.drain) ∧ (z.tankWork refill).level = z.level ∧
    (z.tankWork refill).target = (if refill then z.operLevel else z.emptyLevel) := by
  cases refill <;> exact ⟨rfl, rfl, rfl, rfl, rfl⟩

section
variable {s : State} {b : List Level} {l : Level} {sl : PlanSlot} (h : s.levels = b ++ [l])
  (hslot : s.planSlot l.plan l.step = some sl)
include h hslot

/-! ### The end of the step's order -/

theorem State.planOrderEnded_awaited (hwait : l.wait = .ack) (e : OrderEnd) :
    s.planOrderEnded b.length l.step e = State.runTask (s.orderEnded l sl e) := by
  unfold State.planOrderEnded
  rw [State.running_of h]
  dsimp only
  rw [if_pos ⟨(State.topDepth_of h).symm, rfl, hwait⟩, State.runningSlot, hslot]

omit hslot in
theorem State.planOrderEnded_other {d st : Nat} (hother : d ≠ b.length ∨ st ≠ l.step ∨ l.wait ≠ .ack) (e : OrderEnd) :
    s.planOrderEnded d st e = s := by
  unfold State.planOrderEnded
  rw [State.running_of h]
  dsimp only
  rw [State.topDepth_of h]
  refine if_neg ?_
  rintro ⟨hd, hst, hwait⟩
  exact hother.elim (fun h => h hd) fun h => h.elim (fun h => h hst) fun h => h hwait

/-! ### A reading -/

theorem State.executorReading_tested {i : Nat} {v : Half} (hwait : l.wait = .reading) (hbegun : l.justBegun = false) :
    s.executorReading i v true = if s.readingSatisfies sl i v = true then State.runTask (s.waitSatisfied sl) else s := by
  unfold State.executorReading
  rw [State.running_of h]
  dsimp only
  rw [if_pos ⟨rfl, hwait, hbegun⟩, State.runningSlot, hslot]

omit hslot in
theorem State.executorReading_untested {i : Nat} {v : Half} {ok : Bool}
    (huntested : ok = false ∨ l.wait ≠ .reading ∨ l.justBegun = true) : s.executorReading i v ok = s := by
  unfold State.executorReading
  rw [State.running_of h]
  refine if_neg ?_
  rintro ⟨hok, hwait, hbegun⟩
  rcases huntested with h | h | h
  · rw [hok] at h
    cases h
  · exact h hwait
  · rw [hbegun] at h
    cases h

end

/-- WAIT_FOR's test of a reading. -/
theorem State.readingSatisfies_waitFor {s : State} {sl : PlanSlot} (hkind : sl.kind = .waitFor) (i : Nat) (v : Half) :
    s.readingSatisfies sl i v = true ↔ (sl.subject &&& 0x3F).toNat = i ∧
      (((sl.subject >>> 6).toNat = 0 ∧ sl.value.toNat < v.toNat) ∨
        ((sl.subject >>> 6).toNat = 1 ∧ v.toNat < sl.value.toNat) ∨ ((sl.subject >>> 6).toNat = 2 ∧ v = sl.value)) := by
  simp only [State.readingSatisfies, hkind, Bool.and_eq_true, waitRef]
  refine and_congr decide_eq_true_iff ?_
  unfold waitTest
  rw [← BitVec.toNat_inj (x := v)]
  generalize (sl.subject >>> 6).toNat = n
  match n with
  | 0 | 1 | 2 => simp [WaitTest.holds]
  | n + 3 => simp

theorem State.readingSatisfies_tank {s : State} {sl : PlanSlot} {z : ZoneEntry} (hz : s.zoneAt sl.subject.toNat = some z)
    (i : Nat) (v : Half) :
    (sl.kind = .drain → (s.readingSatisfies sl i v = true ↔ z.level = some i ∧ v.toNat ≤ z.emptyLevel)) ∧
    (sl.kind = .refill → (s.readingSatisfies sl i v = true ↔ z.level = some i ∧ z.operLevel ≤ v.toNat)) := by
  refine ⟨fun hkind => ?_, fun hkind => ?_⟩ <;>
    simp [State.readingSatisfies, hkind, State.tankWork_of hz, ZoneEntry.tankWork]

/-! ### A tank step -/

section
variable {s : State} {b : List Level} {l : Level} {sl : PlanSlot} {w : TankWork} {i : Nat}

theorem State.orderEnded_tank (hkind : sl.kind = .drain ∨ sl.kind = .refill) (hw : s.tankWork sl = some w) (e : OrderEnd) :
    s.orderEnded l sl e = if e = .done then s.tankDone l sl w else s.tankFailed l sl w e := by
  unfold State.orderEnded
  rcases hkind with hkind | hkind <;> rw [hkind] <;> dsimp only <;> rw [hw]

theorem State.tankOpen_of (hvalve : w.valve = some i) : s.tankOpen w = s.placeOrder i 100 3 := by
  rw [State.tankOpen, hvalve]

theorem State.tankOther_of (hother : w.other = some i) : s.tankOther w = s.placeOrder i 0 2 := by
  rw [State.tankOther, hother]

theorem State.tankOther_none (hother : w.other = none) : s.tankOther w = s.tankOpen w := by
  rw [State.tankOther, hother]

theorem State.tankShut_of (hvalve : w.valve = some i) : s.tankShut w = s.placeOrder i 0 5 := by
  rw [State.tankShut, hvalve]

theorem State.waitSatisfied_tank (hkind : sl.kind = .drain ∨ sl.kind = .refill) (hw : s.tankWork sl = some w) :
    s.waitSatisfied sl = (none, s.tankShut w) := by
  unfold State.waitSatisfied
  rcases hkind with hkind | hkind <;> rw [hkind] <;> dsimp only <;> rw [hw]

theorem State.tankFailed_open (hphase : l.tankPhase ≠ 5) (e : OrderEnd) :
    s.tankFailed l sl w e = s.failStep l sl e.reason := by
  unfold State.tankFailed
  split
  next h _ => exact absurd h hphase
  next => rfl

theorem State.tankFailed_shut (h : s.levels = b ++ [l]) (hphase : l.tankPhase = 5) (hvalve : w.valve = some i) (e : OrderEnd) :
    s.tankFailed l sl w e =
      (s.setLevels (b ++ [{ l with touched := touch i 100 l.touched }])).failStep l sl e.reason := by
  rw [← State.modTop_of h fun l => { l with touched := touch i 100 l.touched }]
  unfold State.tankFailed
  split
  next i' _ hvalve' => rw [Option.some.inj (hvalve.symm.trans hvalve')]
  next hno => exact absurd hvalve (hno i hphase)

end

/-- Settles O60: each wait by the event that ends it, each end of a level by its own lemma. -/
theorem planWaitsAndLevelsEnd : Obligations.PlanWaitsAndLevelsEnd := by
  intro s b l sl hlevels hslot d goes failed code owned handedBack stopped fails
  refine ⟨fun d' st e hother => State.planOrderEnded_other hlevels hother e, fun hwait e => ?_, fun i v ok => ?_, fun hkind => ?_,
    fun hkind => ?_, fun hkind ht hmatch => ?_, fun hkind hstep => ?_, fun i r hi hr howner => ?_⟩
  · intro ended
    have hended : ended = State.runTask (s.orderEnded l sl e) := State.planOrderEnded_awaited hlevels hslot hwait e
    have hplaced {i : Nat} {v : Half} {phase : Nat} (hplace : s.orderEnded l sl e = (none, s.placeOrder i v phase)) :
        s.OrderPlaced b l i v phase ended := by
      rw [hended, hplace]
      exact State.placeOrder_placed hlevels i v phase
    have hgoes {x : Level} {u : State} {t : Nat} (hstep : s.orderEnded l sl e = (some .startStep, u.setLevels
        (b ++ [{ x with step := t, wait := .none, tankPhase := 0, deadline := none, justBegun := true }]))) :
        ended = goes x t u := by
      rw [hended, hstep]
    have hadvance (hdone : s.orderEnded l sl e = s.advance) (hstep : l.step + 1 < 12) : ended = goes l (l.step + 1) s :=
      hgoes (hdone.trans (State.advance_next hlevels hstep))
    have hfailed {x : Level} (hfail : s.orderEnded l sl e = (s.setLevels (b ++ [x])).failStep l sl e.reason) :
        (∀ t, sl.failTarget = some t → ended = goes x t (failed l (code e) s)) ∧
          (sl.failTarget = none → fails x (failed l (code e) s) ended) := by
      have hcode : code e = word e.reason.code := e.reason_code.symm
      rw [hcode]
      refine ⟨fun t ht => hgoes (hfail.trans (State.failStep_step (l := x) rfl ht l e.reason)), fun ht => ?_⟩
      obtain ⟨u, hfails, hend⟩ := State.failStep_end (s := s.setLevels (b ++ [x])) rfl ht l e.reason
      exact ⟨u, hfails, by rw [hended, hfail, hend]⟩
    have hsame : s.setLevels (b ++ [l]) = s := by rw [State.setLevels, ← hlevels]
    have hset (hkind : sl.kind = .set) : s.orderEnded l sl e = if e = .done then s.advance else s.failStep l sl e.reason := by
      rw [State.orderEnded, hkind]
    have hhold (hkind : sl.kind = .holdLine) : s.orderEnded l sl e = if e = .done then s.advance else (none, s.orderLine 0) := by
      rw [State.orderEnded, hkind]
    have hrun (hkind : sl.kind = .runLine) :
        s.orderEnded l sl e = if e = .done then s.advance else (none, s.orderLine sl.value) := by
      rw [State.orderEnded, hkind]
    refine ⟨fun hkind hdone => hadvance ?_, fun hkind he => hfailed ?_, fun i hkind he hi => hplaced ?_,
      fun i hkind he hi => hplaced ?_, fun z hkind hz => ?_⟩
    · rcases hkind with hkind | hkind | hkind
      · rw [hset hkind, if_pos hdone]
      · rw [hhold hkind, if_pos hdone]
      · rw [hrun hkind, if_pos hdone]
    · rw [hset hkind, if_neg he, hsame]
    · rw [hhold hkind, if_neg he, State.orderLine, hi]
    · rw [hrun hkind, if_neg he, State.orderLine, hi]
    · intro other valve
      have hwork := State.tankWork_of hz
      obtain ⟨_, hother, hvalve, _, _⟩ := z.tankWork_fields (decide (sl.kind = .refill))
      simp only [decide_eq_true_eq] at hother hvalve
      have hwait : s.tankWait (z.tankWork (decide (sl.kind = .refill))) sl = s.setLevels (b ++ [{ l with
          wait := .reading
          tankPhase := 4
          deadline := if sl.kind = .refill then
              tankDeadline s.time.clock z.volume z.refillRate z.refillOffset sl.timeout.toNat
            else tankDeadline s.time.clock z.volume z.drainRate z.drainOffset sl.timeout.toNat
          justBegun := true }]) := by
        rw [State.tankWait, State.waitFor_of hlevels]
        rcases hkind with hkind | hkind <;> rw [hkind] <;> rfl
      generalize z.tankWork (decide (sl.kind = .refill)) = w at hwork hother hvalve hwait
      have hdone (he : e = .done) : s.orderEnded l sl e = s.tankDone l sl w := by
        rw [State.orderEnded_tank hkind hwork, if_pos he]
      have hnot (he : e ≠ .done) : s.orderEnded l sl e = s.tankFailed l sl w e := by
        rw [State.orderEnded_tank hkind hwork, if_neg he]
      refine ⟨fun i he hphase hi => hplaced ?_, fun i he hphase hi => hplaced ?_, fun he hphase => ?_,
        fun he hphase => hadvance ?_, fun he hphase => hfailed ?_, fun i he hphase hi => hfailed ?_⟩
      · simp only [hdone he, State.tankDone, hphase, State.tankOther_of (hother.trans hi)]
      · rcases hphase with ⟨hphase, hnone⟩ | hphase
        · simp only [hdone he, State.tankDone, hphase, State.tankOther_none (hother.trans hnone),
            State.tankOpen_of (hvalve.trans hi)]
        · simp only [hdone he, State.tankDone, hphase, State.tankOpen_of (hvalve.trans hi)]
      · simp only [hended, hdone he, State.tankDone, hphase, hwait, State.runTask_none]
      · simp only [hdone he, State.tankDone, hphase]
      · rw [hnot he, State.tankFailed_open hphase, hsame]
      · rw [hnot he, State.tankFailed_shut hlevels hphase (hvalve.trans hi)]
  · intro taken
    have hplaced {k : Nat} {z : ZoneEntry} (hkind : sl.kind = .drain ∨ sl.kind = .refill)
        (hz : s.zoneAt sl.subject.toNat = some z) (hvalve : (if sl.kind = .refill then z.inlet else z.drain) = some k)
        (htaken : taken = State.runTask (s.waitSatisfied sl)) : s.OrderPlaced b l k 0 5 taken := by
      obtain ⟨_, _, hw, _, _⟩ := z.tankWork_fields (decide (sl.kind = .refill))
      simp only [decide_eq_true_eq] at hw
      rw [htaken, State.waitSatisfied_tank hkind (State.tankWork_of hz), State.tankShut_of (hw.trans hvalve)]
      exact State.placeOrder_placed hlevels k 0 5
    refine ⟨State.executorReading_untested hlevels, fun hwait hbegun hok hkind => ?_, fun z hwait hbegun hok hz => ?_⟩
    · subst hok
      have htaken : taken = _ := State.executorReading_tested hlevels hslot hwait hbegun
      have hiff := State.readingSatisfies_waitFor (s := s) hkind i v
      refine ⟨fun hno => ?_, fun hholds hstep => ?_⟩
      · rw [htaken, if_neg (mt hiff.mp hno)]
      · rw [htaken, if_pos (hiff.mpr hholds), State.waitSatisfied, hkind]
        dsimp only
        rw [State.advance_next hlevels hstep]
    · subst hok
      have htaken : taken = _ := State.executorReading_tested hlevels hslot hwait hbegun
      obtain ⟨hdrain, hrefill⟩ := State.readingSatisfies_tank (s := s) hz i v
      refine ⟨fun hkind => ⟨fun hno => ?_, fun k hlevel hv hk => hplaced (.inl hkind) hz ?_ ?_⟩,
        fun hkind => ⟨fun hno => ?_, fun k hlevel hv hk => hplaced (.inr hkind) hz ?_ ?_⟩⟩
      · rw [htaken, if_neg (mt (hdrain hkind).mp hno)]
      · rw [hkind, if_neg (by decide), hk]
      · rw [htaken, if_pos ((hdrain hkind).mpr ⟨hlevel, hv⟩)]
      · rw [htaken, if_neg (mt (hrefill hkind).mp hno)]
      · rw [hkind, if_pos rfl, hk]
      · rw [htaken, if_pos ((hrefill hkind).mpr ⟨hlevel, hv⟩)]
  · rw [microStep_slot hlevels hslot, State.beginSlot, hkind]
    exact State.endOk_of hlevels l.step
  · obtain ⟨u, hfails, hend⟩ := State.endFail_of hlevels
    refine ⟨u, hfails, ?_⟩
    rw [microStep_slot hlevels hslot, State.beginSlot, hkind]
    exact hend
  · obtain ⟨u, hfails, hend⟩ := State.moveToFail_end hlevels
    refine ⟨u, hfails, ?_⟩
    rw [microStep_check hlevels hslot hkind, if_pos ?_, ht, hend]
    obtain ⟨g, e, hg, he, hcls, hlast⟩ := hmatch
    exact (s.classMatches_iff _).mpr ⟨g, e, hg, he, decide_eq_true hcls, hlast⟩
  · have hnotified : (s.notify .planNote (word l.cls) (half 0 sl.subject) sl.value).levels = b ++ [l] := hlevels
    rw [microStep_slot hlevels hslot, State.beginSlot, hkind]
    dsimp only
    rw [State.advance_last hnotified (by omega)]
    exact State.endOk_of (l := { l with wait := .none, tankPhase := 0, deadline := none, justBegun := true }) rfl 12
  · intro lists
    refine ⟨fun k v hk hv hnearest => ?_, fun hnone => ?_⟩
    · have hpass : s.passOn i d = s.handBackTo i k v := by
        rw [State.passOn, nearestTouch_some hk hv hnearest]
      rw [hpass]
      exact State.handBackTo_of hi hr k v
    · have hpass : s.passOn i d = s.toController i := by
        rw [State.passOn, nearestTouch_none hnone]
      rw [hpass]
      exact State.toController_of hi hr

end Sys2Proof.Machine
end
